-- ==== Sys2Proof/Word.lean ====
section
/-! DEFINITION. The word types of the HVM4-A (R2) and their plainest arithmetic. -/

namespace Sys2Proof

/-- A 64-bit register value (R56). -/
abbrev Word := BitVec 64

/-- One byte of memory (R2). -/
abbrev Byte := BitVec 8

/-- A guard or predicate number p0 to p7 (R54). -/
abbrev PredNo := BitVec 3

/-- A tensor handle number t0 to t31 (R54). -/
abbrev HandleNo := BitVec 5

/-- A 4-bit operand field X or Y of a 16-bit form (R66). -/
abbrev ZReg := BitVec 4

/-- The bits `hi` down to `lo` of `x`, as a number (R2). -/
def bits {n : Nat} (x : BitVec n) (hi lo : Nat) : Nat :=
  x.toNat / 2 ^ lo % 2 ^ (hi + 1 - lo)

/-- Bit `k` of `x` (R2). -/
def bit {n : Nat} (x : BitVec n) (k : Nat) : Bool := x.getLsbD k

end Sys2Proof
end

