-- ==== Sys2Proof/Config.lean ====
section
/-! DEFINITION. What the spec leaves open: free values with no body, and the constants of the HVM4-A. -/

namespace Sys2Proof.Config

/-- Free value: which of the agents able to move takes the next step (log 3). -/
opaque choice : Nat → Nat

/-- Free value: arithmetic cycles that a step takes (log 4). -/
opaque elapsedCycles : Nat → Nat

/-- Free value: nanoseconds that a step takes (log 4). -/
opaque elapsedNs : Nat → Nat

/-- Free value: whether a deadline that falls within the step of an engine comes before its access to an address (R366,
R368, log 10). -/
opaque late : Nat → Nat → Bool

/-- Free value: whether a TLB still holds the entry that a lookup finds (log 8). -/
opaque tlbKeeps : Nat → Bool

/-- Free values: the SHA-384 digests of the three images measured at the boot before State.reset, the report bytes
that no field names, and a signature (R394, log 17). -/
opaque digest : Nat → BitVec 384
opaque reportRest : Nat → BitVec 496
opaque signature : Nat → BitVec 768

/-- Free value: what the records of a faulted query hold (R381, log 18). -/
opaque faultedRecord : Nat → BitVec 8

/-- Free value: bytes read by the public identity key window (R394, log 17). -/
opaque identityKey : Nat → BitVec 64

/-- Free value: the sender fields of a notice's header (R171, log 19). -/
opaque noticeSender : Nat → BitVec 23

/-- Free values: how many bytes more than one a Ladle channel moves in one step (R298), and whether a packet that runs
walks again for what it has still to move when a TLBI removes a translation of it (R231, R306, R322, log 49). -/
opaque movedBytes : Nat → Nat
opaque walksAgain : Nat → Bool

/-- Free value: how many bytes of its rows a bank's scan reads in one step (R380, R384). -/
opaque scanBytes : Nat → Nat

/-- Free value: bytes from the load base of the object of a generation to the end of its last section (R84, log 56). -/
opaque objectBytes : Nat → Nat

/-- Free value: ASID of a command that a system core posts (R14, R326, log 78). -/
opaque systemAsid : Nat → BitVec 16

/-- Free value: whether an event record overwrites one still unread (R396, log 20). -/
opaque eventUnread : Nat → Bool

/-- Free value: FINST after a fetch fault, for which nothing was fetched (R65, log 23). -/
opaque unfetched : Nat → BitVec 32

/-- Free value: FPC of a fault that no instruction raised (R174, log 23). -/
opaque unnamedPc : Nat → BitVec 52

/-- Free value: KEY of a message of SENDR (R189, log 25). -/
opaque replyKey : Nat → BitVec 32

/-- Whether a frame of another module is compute-capable there (R137, log 72). -/
opaque foreignCc : Nat → Bool

/-- Which of the seven data channels of its stripe set holds a word of a stack (R354, log 24). -/
opaque dataLane : Nat → Nat

/-- The other data word of a word's stripe in one of the six other data channels (R358, log 24). -/
opaque stripeMate : Nat → Nat → Nat

/-- The parity word of a word's stripe, and the seven data words of a parity word's stripe (R358, log 24). -/
opaque parityOf : Nat → Nat
opaque parityData : Nat → Nat → Nat

/-- The DRAM row and bank of a word of a stack (R361, log 24). -/
opaque dramRow : Nat → Nat
opaque dramBank : Nat → Nat

/-- Free value: the word of a stack that an error befalls now, if any, and whether ECC alone cannot correct it (R358,
log 24). -/
opaque upset : Nat → Option (Nat × Bool)

/-- Free value: whether the word now scrubbed shows a bank-level fault (R361, log 24). -/
opaque bankFault : Nat → Bool

/-- The activation threshold of a stack (R367, log 24). -/
opaque activations : Nat → Nat

/-- Free value: the word that the scrubber of a stack reads next (R360, log 3). -/
opaque scrubbed : Nat → Nat

/-- Free values: the bank that a stack refreshes next, whether the refresh is postponed, the standard's
limit of postponed refreshes, and whether a refresh window of the bank ends with it (R353, R367, log 24). -/
opaque refreshed : Nat → Nat
opaque postpones : Nat → Bool
opaque postponeLimit : Nat → Nat
opaque windowEnds : Nat → Bool

/-- Free values: what a flow table entry's 64 bytes mean, whose layout R398 does not give: whether it is in use,
the destination MAC, VLAN, IP protocol and destination port that it asks for (absent for any), its action, its
receive ring (base, buffer size as a power of two from 2 KiB on, count), its queue, and its record or packet;
and whether a ring that the frames have filled once is full (log 31). -/
opaque flowUsed : BitVec 512 → Bool
opaque flowMac : BitVec 512 → Option (BitVec 48)
opaque flowVlan : BitVec 512 → Option (BitVec 12)
opaque flowProtocol : BitVec 512 → Option (BitVec 8)
opaque flowPort : BitVec 512 → Option (BitVec 16)
opaque flowAct : BitVec 512 → BitVec 2
opaque flowBase : BitVec 512 → BitVec 64
opaque flowBuffer : BitVec 512 → Nat
opaque flowCount : BitVec 512 → Nat
opaque flowQueue : BitVec 512 → Nat
opaque flowWord : BitVec 512 → Nat → BitVec 64
opaque ringFull : Nat → Bool

/-- FEAT0 of the HVM4-A (R102). -/
def feat0 : BitVec 64 := 0x000F010700001F0F#64

/-- Arithmetic clock in MHz (R3, R401). -/
def clockMHz : Nat := 940

end Sys2Proof.Config
end

