-- ==== Sys2Proof/Machine/Maps.lean ====
section
/-! DEFINITION. Sparse maps with a default: lists of (key, value) pairs in rising key order. -/

namespace Sys2Proof.Machine

/-- A sparse map from numbers, one pair for each key that has been written, keys rising. -/
abbrev AMap (α : Type) := List (Nat × α)

/-- The value at `k`, or `d` where nothing is listed. -/
def AMap.get {α : Type} (d : α) : AMap α → Nat → α
  | [], _ => d
  | (j, v) :: m, k => if j = k then v else AMap.get d m k

/-- Writes `v` at `k`, keeping the keys rising. -/
def AMap.set {α : Type} : AMap α → Nat → α → AMap α
  | [], k, v => [(k, v)]
  | (j, w) :: m, k, v =>
    if j = k then (k, v) :: m
    else if k < j then (k, v) :: (j, w) :: m
    else (j, w) :: AMap.set m k v

/-- Removes what is listed at `k`. -/
def AMap.erase {α : Type} (m : AMap α) (k : Nat) : AMap α := m.filter fun e => e.1 ≠ k

/-- The n-th element of a list and the list without it. -/
def takeAt {α : Type} : List α → Nat → Option (α × List α)
  | [], _ => none
  | x :: xs, 0 => some (x, xs)
  | x :: xs, n + 1 =>
    match takeAt xs n with
    | some (y, ys) => some (y, x :: ys)
    | none => none

/-- Replaces the n-th element of a list; nothing where there is none. -/
def putAt {α : Type} : List α → Nat → α → List α
  | [], _, _ => []
  | _ :: xs, 0, y => y :: xs
  | x :: xs, n + 1, y => x :: putAt xs n y

/-- The position of the first element that satisfies `p`. -/
def findPos {α : Type} (p : α → Bool) : List α → Option Nat
  | [] => none
  | x :: xs => if p x then some 0 else (findPos p xs).map (· + 1)

end Sys2Proof.Machine
end

