-- ==== Sys2Proof/Syntax.lean ====
section
/-! DEFINITION. The instructions and events of spec/opcode_table.json, one constructor per row. -/

namespace Sys2Proof

/-- What a 7-bit operand specifier selects as a source (R55). -/
inductive Src where
  | s (n : BitVec 6)   -- s0 to s63; s0 reads zero
  | q (n : BitVec 3)   -- q0 to q7
  | a (n : Fin 6)      -- a0 to a5
  | i (n : BitVec 2)   -- i0 to i3, sign-extended (R56)
  | c (n : BitVec 4)   -- c0 to c15, sign-extended (R56)
  | last               -- L
  deriving DecidableEq, Repr

/-- What a 7-bit operand specifier selects as a destination (R55). -/
inductive Dst where
  | s (n : BitVec 6)   -- s1 to s63; s0: the result goes to L only
  | q (n : BitVec 3)   -- q0 to q7
  | last               -- 126: the result goes to L only
  deriving DecidableEq, Repr

/-- A received Ethernet frame (R397, R398): its port and its bytes. -/
structure Frame where
  port  : Nat
  bytes : List Byte
  deriving DecidableEq, Repr

/-- A class 3 actor that the firmware creates (R393, R191): its core, and what a creation asks for. -/
structure BootActor where
  core   : Nat
  desc   : BitVec 64
  gen    : BitVec 64
  act    : BitVec 3
  rres   : Nat
  colour : BitVec 6
  mb0q   : Nat
  asid   : BitVec 16
  deriving DecidableEq, Repr

/-- What a module reset finds (R393): the stage that fails, if any, and what the straps and the
signed configuration block set. -/
structure Boot where
  failStage : BitVec 8
  nodeX     : BitVec 8
  nodeY     : BitVec 8
  ccn       : Vector (BitVec 13) 8
  grace     : BitVec 32
  scrubp    : BitVec 8
  /-- The HBM granules reserved for the system cores, and the entry of system core 0. -/
  reserved  : List Nat
  entry     : BitVec 64
  /-- The boot source and the PCIe strap. -/
  source    : BitVec 8
  pcie      : Bool
  /-- What the firmware has put into memory, and the class 3 actors that it creates. -/
  image     : List (Nat × List (BitVec 8))
  actors    : List BootActor
  /-- The firmware image, the configuration block and the hypervisor image, as stage 4 measures them (R394). -/
  images    : Vector (List (BitVec 8)) 3
  deriving DecidableEq, Repr

/-- Where a system core stores (R392): its number and a physical address. -/
structure HartPlace where
  hart : Nat
  pa   : Nat
  deriving DecidableEq, Repr

/-- The rows of spec/opcode_table.json. The rows with bits are instructions; the rows without bits
are events, whose operands say which pending thing is concerned or carry the outside input. -/
inductive Instr where
  /-- ADD (R107). -/
  | add (d : Dst) (a : Src) (b : Src) (g : PredNo)
  /-- SUB (R107). -/
  | sub (d : Dst) (a : Src) (b : Src) (g : PredNo)
  /-- MUL (R107). -/
  | mul (d : Dst) (a : Src) (b : Src) (g : PredNo)
  /-- MULH (R107). -/
  | mulh (d : Dst) (a : Src) (b : Src) (g : PredNo)
  /-- DIV (R108). -/
  | div (d : Dst) (a : Src) (b : Src) (g : PredNo)
  /-- REM (R108). -/
  | rem (d : Dst) (a : Src) (b : Src) (g : PredNo)
  /-- AND (R107). -/
  | and (d : Dst) (a : Src) (b : Src) (g : PredNo)
  /-- OR (R107). -/
  | or (d : Dst) (a : Src) (b : Src) (g : PredNo)
  /-- XOR (R107). -/
  | xor (d : Dst) (a : Src) (b : Src) (g : PredNo)
  /-- SHL (R107). -/
  | shl (d : Dst) (a : Src) (b : Src) (g : PredNo)
  /-- SHR (R107). -/
  | shr (d : Dst) (a : Src) (b : Src) (g : PredNo)
  /-- SAR (R107). -/
  | sar (d : Dst) (a : Src) (b : Src) (g : PredNo)
  /-- SEL (R109). -/
  | sel (d : Dst) (a : Src) (b : Src) (p : PredNo)
  /-- MIN (R107). -/
  | min (d : Dst) (a : Src) (b : Src) (g : PredNo)
  /-- MAX (R107). -/
  | max (d : Dst) (a : Src) (b : Src) (g : PredNo)
  /-- CMP_EQ (R111). -/
  | cmpEq (pd : PredNo) (a : Src) (b : Src) (g : PredNo)
  /-- CMP_NE (R111). -/
  | cmpNe (pd : PredNo) (a : Src) (b : Src) (g : PredNo)
  /-- CMP_LT (R111). -/
  | cmpLt (pd : PredNo) (a : Src) (b : Src) (g : PredNo)
  /-- CMP_GE (R111). -/
  | cmpGe (pd : PredNo) (a : Src) (b : Src) (g : PredNo)
  /-- CMP_LE (R111). -/
  | cmpLe (pd : PredNo) (a : Src) (b : Src) (g : PredNo)
  /-- CMP_GT (R111). -/
  | cmpGt (pd : PredNo) (a : Src) (b : Src) (g : PredNo)
  /-- CMP_LTN (R111). -/
  | cmpLtn (pd : PredNo) (a : Src) (b : Src) (g : PredNo)
  /-- CMP_GEN (R111). -/
  | cmpGen (pd : PredNo) (a : Src) (b : Src) (g : PredNo)
  /-- CMP_LEN (R111). -/
  | cmpLen (pd : PredNo) (a : Src) (b : Src) (g : PredNo)
  /-- CMP_GTN (R111). -/
  | cmpGtn (pd : PredNo) (a : Src) (b : Src) (g : PredNo)
  /-- CMP_ANY (R111). -/
  | cmpAny (pd : PredNo) (a : Src) (b : Src) (g : PredNo)
  /-- CMP_NONE (R111). -/
  | cmpNone (pd : PredNo) (a : Src) (b : Src) (g : PredNo)
  /-- CMP_ALL (R111). -/
  | cmpAll (pd : PredNo) (a : Src) (b : Src) (g : PredNo)
  /-- CMP_NALL (R111). -/
  | cmpNall (pd : PredNo) (a : Src) (b : Src) (g : PredNo)
  /-- CMP_BIT (R111). -/
  | cmpBit (pd : PredNo) (a : Src) (b : Src) (g : PredNo)
  /-- CMP_NBIT (R111). -/
  | cmpNbit (pd : PredNo) (a : Src) (b : Src) (g : PredNo)
  /-- ADDI (R112). -/
  | addi (d : Dst) (a : Src) (imm : BitVec 10)
  /-- LOGI_AND (R113). -/
  | logiAnd (d : Dst) (a : Src) (v : BitVec 7)
  /-- LOGI_OR (R113). -/
  | logiOr (d : Dst) (a : Src) (v : BitVec 7)
  /-- LOGI_XOR (R113). -/
  | logiXor (d : Dst) (a : Src) (v : BitVec 7)
  /-- LOGI_ANDN (R113). -/
  | logiAndn (d : Dst) (a : Src) (v : Src)
  /-- LOGI_ORN (R113). -/
  | logiOrn (d : Dst) (a : Src) (v : Src)
  /-- LOGI_XNOR (R113). -/
  | logiXnor (d : Dst) (a : Src) (v : Src)
  /-- SHI_SHL (R114). -/
  | shiShl (d : Dst) (a : Src) (n : BitVec 6)
  /-- SHI_SHR (R114). -/
  | shiShr (d : Dst) (a : Src) (n : BitVec 6)
  /-- SHI_SAR (R114). -/
  | shiSar (d : Dst) (a : Src) (n : BitVec 6)
  /-- SHI_ROL (R114). -/
  | shiRol (d : Dst) (a : Src) (n : BitVec 6)
  /-- SHI_ROR (R114). -/
  | shiRor (d : Dst) (a : Src) (n : BitVec 6)
  /-- LIM (R115). -/
  | lim (d : Dst) (imm : BitVec 17)
  /-- BEXT_U (R116). -/
  | bextU (d : Dst) (a : Src) (v : Src)
  /-- BEXT_S (R116). -/
  | bextS (d : Dst) (a : Src) (v : Src)
  /-- BEXT_I8 (R116). -/
  | bextI8 (d : Dst) (a : Src) (v : Src)
  /-- BEXT_N8 (R116). -/
  | bextN8 (d : Dst) (a : Src) (v : Src)
  /-- BEXT_I16 (R116). -/
  | bextI16 (d : Dst) (a : Src) (v : Src)
  /-- BEXT_N16 (R116). -/
  | bextN16 (d : Dst) (a : Src) (v : Src)
  /-- BEXT_I32 (R116). -/
  | bextI32 (d : Dst) (a : Src) (v : Src)
  /-- BEXT_N32 (R116). -/
  | bextN32 (d : Dst) (a : Src) (v : Src)
  /-- BINS_INS (R117). -/
  | binsIns (d : Dst) (a : Src) (v : Src)
  /-- BINS_B8 (R117). -/
  | binsB8 (d : Dst) (a : Src) (v : Src)
  /-- BINS_B16 (R117). -/
  | binsB16 (d : Dst) (a : Src) (v : Src)
  /-- BINS_B32 (R117). -/
  | binsB32 (d : Dst) (a : Src) (v : Src)
  /-- FSH (R110). -/
  | fsh (d : Dst) (a : Src) (b : Src) (g : PredNo)
  /-- BCNT_POP (R118). -/
  | bcntPop (d : Dst) (a : Src)
  /-- BCNT_CLZ (R118). -/
  | bcntClz (d : Dst) (a : Src)
  /-- BCNT_CTZ (R118). -/
  | bcntCtz (d : Dst) (a : Src)
  /-- BCNT_CLO (R118). -/
  | bcntClo (d : Dst) (a : Src)
  /-- BCNT_CTO (R118). -/
  | bcntCto (d : Dst) (a : Src)
  /-- BCNT_REV (R118). -/
  | bcntRev (d : Dst) (a : Src)
  /-- BCNT_BSW (R118). -/
  | bcntBsw (d : Dst) (a : Src)
  /-- BR_T (R122). -/
  | brT (p : PredNo) (disp : BitVec 20)
  /-- BR_F (R122). -/
  | brF (p : PredNo) (disp : BitVec 20)
  /-- J (R123). -/
  | j (disp : BitVec 24)
  /-- JL (R123). -/
  | jl (disp : BitVec 24)
  /-- JR (R124). -/
  | jr (d : Dst) (a : Src) (imm : BitVec 10)
  /-- LSET (R126). -/
  | lset (k : BitVec 2) (a : Src)
  /-- LEND (R127). -/
  | lend (n : BitVec 2) (disp : BitVec 20)
  /-- PLOG_CLR (R119). -/
  | plogClr (pd : PredNo) (pa : PredNo) (pb : PredNo) (g : PredNo)
  /-- PLOG_NOR (R119). -/
  | plogNor (pd : PredNo) (pa : PredNo) (pb : PredNo) (g : PredNo)
  /-- PLOG_ANDNA (R119). -/
  | plogAndna (pd : PredNo) (pa : PredNo) (pb : PredNo) (g : PredNo)
  /-- PLOG_NOTA (R119). -/
  | plogNota (pd : PredNo) (pa : PredNo) (pb : PredNo) (g : PredNo)
  /-- PLOG_ANDNB (R119). -/
  | plogAndnb (pd : PredNo) (pa : PredNo) (pb : PredNo) (g : PredNo)
  /-- PLOG_NOTB (R119). -/
  | plogNotb (pd : PredNo) (pa : PredNo) (pb : PredNo) (g : PredNo)
  /-- PLOG_XOR (R119). -/
  | plogXor (pd : PredNo) (pa : PredNo) (pb : PredNo) (g : PredNo)
  /-- PLOG_NAND (R119). -/
  | plogNand (pd : PredNo) (pa : PredNo) (pb : PredNo) (g : PredNo)
  /-- PLOG_AND (R119). -/
  | plogAnd (pd : PredNo) (pa : PredNo) (pb : PredNo) (g : PredNo)
  /-- PLOG_XNOR (R119). -/
  | plogXnor (pd : PredNo) (pa : PredNo) (pb : PredNo) (g : PredNo)
  /-- PLOG_MOVB (R119). -/
  | plogMovb (pd : PredNo) (pa : PredNo) (pb : PredNo) (g : PredNo)
  /-- PLOG_ORNA (R119). -/
  | plogOrna (pd : PredNo) (pa : PredNo) (pb : PredNo) (g : PredNo)
  /-- PLOG_MOVA (R119). -/
  | plogMova (pd : PredNo) (pa : PredNo) (pb : PredNo) (g : PredNo)
  /-- PLOG_ORNB (R119). -/
  | plogOrnb (pd : PredNo) (pa : PredNo) (pb : PredNo) (g : PredNo)
  /-- PLOG_OR (R119). -/
  | plogOr (pd : PredNo) (pa : PredNo) (pb : PredNo) (g : PredNo)
  /-- PLOG_SET (R119). -/
  | plogSet (pd : PredNo) (pa : PredNo) (pb : PredNo) (g : PredNo)
  /-- CSET (R120). -/
  | cset (a : Src) (mask : BitVec 8)
  /-- ADR (R128). -/
  | adr (k : BitVec 2) (d : Dst) (a : Src) (v : Src)
  /-- HRET (R129). -/
  | hret (g : PredNo)
  /-- HINT (R130). -/
  | hint (kind : BitVec 7) (imm : BitVec 17)
  /-- GETC_PC (R131). -/
  | getcPc (d : Dst)
  /-- GETC_HDR0 (R131). -/
  | getcHdr0 (d : Dst)
  /-- GETC_HDR1 (R131). -/
  | getcHdr1 (d : Dst)
  /-- GETC_PRD (R131). -/
  | getcPrd (d : Dst)
  /-- LD (R143). -/
  | ld (d : Dst) (b : Src) (sz : BitVec 2) (off : BitVec 5) (g : PredNo)
  /-- LDN (R143). -/
  | ldn (d : Dst) (b : Src) (sz : BitVec 2) (off : BitVec 5) (g : PredNo)
  /-- ST (R143). -/
  | st (d : Src) (b : Src) (sz : BitVec 2) (off : BitVec 5) (g : PredNo)
  /-- LDH (R147). -/
  | ldh (t : HandleNo) (b : Src) (off : BitVec 5) (g : PredNo)
  /-- STH (R147). -/
  | sth (t : HandleNo) (b : Src) (off : BitVec 5) (g : PredNo)
  /-- AMO_ADD (R150). -/
  | amoAdd (d : Dst) (a : Src) (v : Src)
  /-- AMO_AND (R150). -/
  | amoAnd (d : Dst) (a : Src) (v : Src)
  /-- AMO_OR (R150). -/
  | amoOr (d : Dst) (a : Src) (v : Src)
  /-- AMO_XOR (R150). -/
  | amoXor (d : Dst) (a : Src) (v : Src)
  /-- AMO_MIN (R150). -/
  | amoMin (d : Dst) (a : Src) (v : Src)
  /-- AMO_MAX (R150). -/
  | amoMax (d : Dst) (a : Src) (v : Src)
  /-- AMO_SWP (R150). -/
  | amoSwp (d : Dst) (a : Src) (v : Src)
  /-- AMO_A96 (R151). -/
  | amoA96 (d : Dst) (a : Src) (v : Src)
  /-- CAS_W (R152). -/
  | casW (d : Dst) (a : Src) (v : Src)
  /-- CAS_D (R152). -/
  | casD (d : Dst) (a : Src) (v : Src)
  /-- QCLAIM (R153). -/
  | qclaim (d : Dst) (a : Src) (v : Src)
  /-- FENCE_ACQ (R162). -/
  | fenceAcq (scope : BitVec 3)
  /-- FENCE_REL (R162). -/
  | fenceRel (scope : BitVec 3)
  /-- FENCE_FULL (R162). -/
  | fenceFull (scope : BitVec 3)
  /-- WADDR_EQ (R156). -/
  | waddrEq (d : Dst) (a : Src) (v : Src)
  /-- WADDR_NE (R156). -/
  | waddrNe (d : Dst) (a : Src) (v : Src)
  /-- WADDR_GES (R156). -/
  | waddrGes (d : Dst) (a : Src) (v : Src)
  /-- WADDR_ANY (R156). -/
  | waddrAny (d : Dst) (a : Src) (v : Src)
  /-- WBEAD (R157). -/
  | wbead (ld : BitVec 6) (st : BitVec 6) (cp : BitVec 6) (tl : BitVec 6)
  /-- PWLD (R149). -/
  | pwld (d : Dst) (b : Src) (sz : BitVec 2) (sx : BitVec 1) (w : BitVec 3) (g : PredNo)
  /-- LDX (R144). -/
  | ldx (d : Dst) (b : Src) (sz : BitVec 2) (sx : BitVec 1) (k : BitVec 2) (g : PredNo)
  /-- STX (R144). -/
  | stx (d : Src) (b : Src) (sz : BitVec 2) (k : BitVec 2) (g : PredNo)
  /-- SEND (R188). -/
  | send (a : Src) (b : Src) (type : BitVec 8) (mb : BitVec 2)
  /-- SENDR (R189). -/
  | sendr (a : Src) (b : Src) (type : BitVec 8) (mb : BitVec 2)
  /-- MBCFG_SET (R190). -/
  | mbcfgSet (d : Dst) (a : Src) (v : Src)
  /-- MBCFG_OFF (R190). -/
  | mbcfgOff (d : Dst) (v : Src)
  /-- MBCFG_KEY (R190). -/
  | mbcfgKey (d : Dst) (a : Src) (v : Src)
  /-- MBCFG_STAT (R190). -/
  | mbcfgStat (d : Dst) (v : Src)
  /-- MBCFG_RCAN (R190). -/
  | mbcfgRcan (d : Dst)
  /-- ACTOR_NEW (R191). -/
  | actorNew (d : Dst) (a : Src)
  /-- ACTOR_EXIT (R191). -/
  | actorExit
  /-- ACTOR_KILL (R191). -/
  | actorKill (d : Dst) (a : Src)
  /-- LAUNCH (R195). -/
  | launch (d : Dst) (a : Src) (v : Src)
  /-- JOIN_STAT (R198). -/
  | joinStat (d : Dst) (a : Src)
  /-- JOIN_KILL (R198). -/
  | joinKill (d : Dst) (a : Src)
  /-- WLAPP (R200). -/
  | wlapp (d : Dst) (a : Src) (v : Src)
  /-- WLTAKE_CORE (R201). -/
  | wltakeCore (d : Dst) (v : Src)
  /-- WLTAKE_QUAD (R201). -/
  | wltakeQuad (d : Dst) (v : Src)
  /-- WLTAKE_CLUS (R201). -/
  | wltakeClus (d : Dst) (v : Src)
  /-- BARR (R205). -/
  | barr (d : Dst) (a : Src)
  /-- BWAIT (R205). -/
  | bwait (d : Dst) (a : Src) (v : Src)
  /-- BALLOC (R204). -/
  | balloc (scope : BitVec 3) (d : Dst) (a : Src)
  /-- BFREE (R204). -/
  | bfree (d : Dst) (a : Src)
  /-- QUIES_ARM (R202). -/
  | quiesArm (d : Dst) (a : Src) (v : Src)
  /-- QUIES_DISARM (R202). -/
  | quiesDisarm (d : Dst) (a : Src) (v : Src)
  /-- QUIES_TEST (R202). -/
  | quiesTest (d : Dst) (a : Src) (v : Src)
  /-- RGSET_RD (R207). -/
  | rgsetRd (d : Dst) (a : Src) (v : Src)
  /-- RGSET_WR (R207). -/
  | rgsetWr (d : Dst) (a : Src) (v : Src)
  /-- RGSET_CLR (R207). -/
  | rgsetClr (d : Dst) (a : Src)
  /-- MMA (R254). -/
  | mma (td : HandleNo) (ta : HandleNo) (tb : HandleNo) (g : PredNo)
  /-- MZERO_ZERO (R255). -/
  | mzeroZero (td : HandleNo) (g : PredNo)
  /-- MZERO_LOAD (R255). -/
  | mzeroLoad (td : HandleNo) (ta : HandleNo) (g : PredNo)
  /-- MZERO_ADD (R255). -/
  | mzeroAdd (td : HandleNo) (ta : HandleNo) (g : PredNo)
  /-- MZERO_STAT (R255). -/
  | mzeroStat (td : HandleNo) (ta : HandleNo) (g : PredNo)
  /-- MCVT_RNE (R257). -/
  | mcvtRne (td : HandleNo) (ta : HandleNo) (ctl : BitVec 1) (g : PredNo)
  /-- MCVT_RTZ (R257). -/
  | mcvtRtz (td : HandleNo) (ta : HandleNo) (ctl : BitVec 1) (g : PredNo)
  /-- MCVT_RDN (R257). -/
  | mcvtRdn (td : HandleNo) (ta : HandleNo) (ctl : BitVec 1) (g : PredNo)
  /-- MCVT_RUP (R257). -/
  | mcvtRup (td : HandleNo) (ta : HandleNo) (ctl : BitVec 1) (g : PredNo)
  /-- MCVT_SRK (R257). -/
  | mcvtSrk (td : HandleNo) (ta : HandleNo) (ctl : BitVec 1) (g : PredNo)
  /-- MRESC (R258). -/
  | mresc (td : HandleNo) (ta : HandleNo) (tb : HandleNo) (g : PredNo)
  /-- MSTAT_RD (R259). -/
  | mstatRd (td : HandleNo) (ta : HandleNo) (g : PredNo)
  /-- MSTAT_RDCLR (R259). -/
  | mstatRdclr (td : HandleNo) (ta : HandleNo) (g : PredNo)
  /-- MANCH (R256). -/
  | manch (td : HandleNo) (g : PredNo)
  /-- MBPUT (R260). -/
  | mbput (td : HandleNo) (ta : HandleNo) (g : PredNo)
  /-- MPOST (R261). -/
  | mpost (td : HandleNo) (g : PredNo)
  /-- VMAP_ADD (R284). -/
  | vmapAdd (td : HandleNo) (ta : HandleNo) (tb : HandleNo) (ctl : BitVec 3) (g : PredNo)
  /-- VMAP_SUB (R284). -/
  | vmapSub (td : HandleNo) (ta : HandleNo) (tb : HandleNo) (ctl : BitVec 3) (g : PredNo)
  /-- VMAP_MUL (R284). -/
  | vmapMul (td : HandleNo) (ta : HandleNo) (tb : HandleNo) (ctl : BitVec 3) (g : PredNo)
  /-- VMAP_MIN (R284). -/
  | vmapMin (td : HandleNo) (ta : HandleNo) (tb : HandleNo) (ctl : BitVec 3) (g : PredNo)
  /-- VMAP_MAX (R284). -/
  | vmapMax (td : HandleNo) (ta : HandleNo) (tb : HandleNo) (ctl : BitVec 3) (g : PredNo)
  /-- VMAP_ABS (R284). -/
  | vmapAbs (td : HandleNo) (ta : HandleNo) (ctl : BitVec 3) (g : PredNo)
  /-- VMAP_NEG (R284). -/
  | vmapNeg (td : HandleNo) (ta : HandleNo) (ctl : BitVec 3) (g : PredNo)
  /-- VFMA_FMA (R285). -/
  | vfmaFma (td : HandleNo) (ta : HandleNo) (tb : HandleNo) (ctl : BitVec 3) (g : PredNo)
  /-- VFMA_FMS (R285). -/
  | vfmaFms (td : HandleNo) (ta : HandleNo) (tb : HandleNo) (ctl : BitVec 3) (g : PredNo)
  /-- VFMA_FNMA (R285). -/
  | vfmaFnma (td : HandleNo) (ta : HandleNo) (tb : HandleNo) (ctl : BitVec 3) (g : PredNo)
  /-- VFMA_FNMS (R285). -/
  | vfmaFnms (td : HandleNo) (ta : HandleNo) (tb : HandleNo) (ctl : BitVec 3) (g : PredNo)
  /-- VCMP_EQ (R286). -/
  | vcmpEq (td : HandleNo) (ta : HandleNo) (tb : HandleNo) (g : PredNo)
  /-- VCMP_NE (R286). -/
  | vcmpNe (td : HandleNo) (ta : HandleNo) (tb : HandleNo) (g : PredNo)
  /-- VCMP_LT (R286). -/
  | vcmpLt (td : HandleNo) (ta : HandleNo) (tb : HandleNo) (g : PredNo)
  /-- VCMP_LE (R286). -/
  | vcmpLe (td : HandleNo) (ta : HandleNo) (tb : HandleNo) (g : PredNo)
  /-- VCMP_GT (R286). -/
  | vcmpGt (td : HandleNo) (ta : HandleNo) (tb : HandleNo) (g : PredNo)
  /-- VCMP_GE (R286). -/
  | vcmpGe (td : HandleNo) (ta : HandleNo) (tb : HandleNo) (g : PredNo)
  /-- VCMP_UN (R286). -/
  | vcmpUn (td : HandleNo) (ta : HandleNo) (tb : HandleNo) (g : PredNo)
  /-- VCMP_ORD (R286). -/
  | vcmpOrd (td : HandleNo) (ta : HandleNo) (tb : HandleNo) (g : PredNo)
  /-- VLOG_AND (R287). -/
  | vlogAnd (td : HandleNo) (ta : HandleNo) (tb : HandleNo) (g : PredNo)
  /-- VLOG_OR (R287). -/
  | vlogOr (td : HandleNo) (ta : HandleNo) (tb : HandleNo) (g : PredNo)
  /-- VLOG_XOR (R287). -/
  | vlogXor (td : HandleNo) (ta : HandleNo) (tb : HandleNo) (g : PredNo)
  /-- VLOG_ANDN (R287). -/
  | vlogAndn (td : HandleNo) (ta : HandleNo) (tb : HandleNo) (g : PredNo)
  /-- VLOG_NOT (R287). -/
  | vlogNot (td : HandleNo) (ta : HandleNo) (g : PredNo)
  /-- VLOG_MNOT (R287). -/
  | vlogMnot (td : HandleNo) (ta : HandleNo) (g : PredNo)
  /-- VSHF_SHL (R288). -/
  | vshfShl (td : HandleNo) (ta : HandleNo) (tb : HandleNo) (g : PredNo)
  /-- VSHF_SHR (R288). -/
  | vshfShr (td : HandleNo) (ta : HandleNo) (tb : HandleNo) (g : PredNo)
  /-- VSHF_SAR (R288). -/
  | vshfSar (td : HandleNo) (ta : HandleNo) (tb : HandleNo) (g : PredNo)
  /-- VSHF_RSHR (R288). -/
  | vshfRshr (td : HandleNo) (ta : HandleNo) (tb : HandleNo) (g : PredNo)
  /-- VRED_SUM (R289). -/
  | vredSum (td : HandleNo) (ta : HandleNo) (ctl : BitVec 3) (g : PredNo)
  /-- VRED_MAX (R289). -/
  | vredMax (td : HandleNo) (ta : HandleNo) (ctl : BitVec 3) (g : PredNo)
  /-- VRED_MIN (R289). -/
  | vredMin (td : HandleNo) (ta : HandleNo) (ctl : BitVec 3) (g : PredNo)
  /-- VRED_AMAX (R289). -/
  | vredAmax (td : HandleNo) (ta : HandleNo) (ctl : BitVec 3) (g : PredNo)
  /-- VRED_IMAX (R289). -/
  | vredImax (td : HandleNo) (ta : HandleNo) (g : PredNo)
  /-- VRED_IMIN (R289). -/
  | vredImin (td : HandleNo) (ta : HandleNo) (g : PredNo)
  /-- VXF_EXP2 (R290). -/
  | vxfExp2 (td : HandleNo) (ta : HandleNo) (ctl : BitVec 3) (g : PredNo)
  /-- VXF_LOG2 (R290). -/
  | vxfLog2 (td : HandleNo) (ta : HandleNo) (ctl : BitVec 3) (g : PredNo)
  /-- VXF_RCP (R290). -/
  | vxfRcp (td : HandleNo) (ta : HandleNo) (ctl : BitVec 3) (g : PredNo)
  /-- VXF_RSQRT (R290). -/
  | vxfRsqrt (td : HandleNo) (ta : HandleNo) (ctl : BitVec 3) (g : PredNo)
  /-- VXF_SIN (R290). -/
  | vxfSin (td : HandleNo) (ta : HandleNo) (ctl : BitVec 3) (g : PredNo)
  /-- VXF_COS (R290). -/
  | vxfCos (td : HandleNo) (ta : HandleNo) (ctl : BitVec 3) (g : PredNo)
  /-- VCVT_RNE (R291). -/
  | vcvtRne (td : HandleNo) (ta : HandleNo) (ctl : BitVec 1) (g : PredNo)
  /-- VCVT_RTZ (R291). -/
  | vcvtRtz (td : HandleNo) (ta : HandleNo) (ctl : BitVec 1) (g : PredNo)
  /-- VCVT_RDN (R291). -/
  | vcvtRdn (td : HandleNo) (ta : HandleNo) (ctl : BitVec 1) (g : PredNo)
  /-- VCVT_RUP (R291). -/
  | vcvtRup (td : HandleNo) (ta : HandleNo) (ctl : BitVec 1) (g : PredNo)
  /-- VCVT_SRK (R291). -/
  | vcvtSrk (td : HandleNo) (ta : HandleNo) (ctl : BitVec 1) (g : PredNo)
  /-- VSEL_SEL (R292). -/
  | vselSel (td : HandleNo) (ta : HandleNo) (tb : HandleNo) (g : PredNo)
  /-- VSEL_GATH (R292). -/
  | vselGath (td : HandleNo) (ta : HandleNo) (tb : HandleNo) (g : PredNo)
  /-- VSEL_RGATH (R292). -/
  | vselRgath (td : HandleNo) (ta : HandleNo) (tb : HandleNo) (g : PredNo)
  /-- VSEL_CMPR (R292). -/
  | vselCmpr (td : HandleNo) (ta : HandleNo) (tb : HandleNo) (g : PredNo)
  /-- VPERM_TR (R293). -/
  | vpermTr (td : HandleNo) (ta : HandleNo) (g : PredNo)
  /-- VPERM_REV (R293). -/
  | vpermRev (td : HandleNo) (ta : HandleNo) (g : PredNo)
  /-- VPERM_ZIP (R293). -/
  | vpermZip (td : HandleNo) (ta : HandleNo) (g : PredNo)
  /-- VPERM_UNZIP (R293). -/
  | vpermUnzip (td : HandleNo) (ta : HandleNo) (g : PredNo)
  /-- LPOST_CP (R314). -/
  | lpostCp (td : HandleNo) (ctl : BitVec 2) (g : PredNo)
  /-- LPOST_PKT (R314). -/
  | lpostPkt (td : HandleNo) (ctl : BitVec 2) (g : PredNo)
  /-- LSHAPE_ELEM (R316). -/
  | lshapeElem (td : HandleNo) (ta : HandleNo) (ctl : BitVec 2) (g : PredNo)
  /-- LSHAPE_SCALE (R316). -/
  | lshapeScale (td : HandleNo) (ta : HandleNo) (ctl : BitVec 2) (g : PredNo)
  /-- LQCTL_BIND (R317). -/
  | lqctlBind (d : Dst) (a : Src)
  /-- LQCTL_RING (R317). -/
  | lqctlRing (d : Dst) (a : Src)
  /-- LQCTL_STAT (R317). -/
  | lqctlStat (d : Dst) (a : Src)
  /-- LQCTL_UNBIND (R317). -/
  | lqctlUnbind (d : Dst) (a : Src)
  /-- KPLAN (R334). -/
  | kplan (td : HandleNo) (ta : HandleNo) (ctl : BitVec 2) (g : PredNo)
  /-- KPLAY_CP (R335). -/
  | kplayCp (td : HandleNo) (ctl : BitVec 2) (g : PredNo)
  /-- KPLAY_FLAG (R335). -/
  | kplayFlag (td : HandleNo) (ctl : BitVec 2) (g : PredNo)
  /-- KCOMM_BIND (R328). -/
  | kcommBind (td : HandleNo) (ta : HandleNo) (g : PredNo)
  /-- KCOMM_FREE (R328). -/
  | kcommFree (td : HandleNo) (ctl : BitVec 2) (g : PredNo)
  /-- KABRT (R342). -/
  | kabrt (d : Dst) (a : Src)
  /-- QPOST_LD (R374). -/
  | qpostLd (td : HandleNo) (ta : HandleNo) (tb : HandleNo) (g : PredNo)
  /-- QPOST_FLAG (R374). -/
  | qpostFlag (td : HandleNo) (ta : HandleNo) (tb : HandleNo) (g : PredNo)
  /-- QAPND_PUT (R382). -/
  | qapndPut (td : HandleNo) (ta : HandleNo) (g : PredNo)
  /-- QAPND_ADV (R382). -/
  | qapndAdv (td : HandleNo) (ta : HandleNo) (g : PredNo)
  /-- QAPND_CLR (R382). -/
  | qapndClr (td : HandleNo) (g : PredNo)
  /-- QSTAT_ROWS (R383). -/
  | qstatRows (d : Dst) (a : Src)
  /-- QSTAT_UNIT (R383). -/
  | qstatUnit (d : Dst) (a : Src)
  /-- CSR_RD (R229). -/
  | csrRd (d : Dst) (csr : BitVec 12)
  /-- CSR_WR (R229). -/
  | csrWr (d : Src) (csr : BitVec 12)
  /-- CSR_SET (R229). -/
  | csrSet (d : Src) (csr : BitVec 12)
  /-- CSR_CLR (R229). -/
  | csrClr (d : Src) (csr : BitVec 12)
  /-- CSR_SWP (R229). -/
  | csrSwp (d : Dst) (csr : BitVec 12)
  /-- SYS_COMMIT (R230). -/
  | sysCommit (d : Dst)
  /-- SYS_ERET (R230). -/
  | sysEret
  /-- SYS_CKPT (R223). -/
  | sysCkpt (d : Dst)
  /-- TLBI_RANGE (R231). -/
  | tlbiRange (d : Dst) (a : Src) (v : Src)
  /-- TLBI_ASID (R231). -/
  | tlbiAsid (d : Dst) (v : Src)
  /-- TLBI_ALL (R231). -/
  | tlbiAll (d : Dst)
  /-- CTX_EVICT (R224). -/
  | ctxEvict (d : Dst) (a : Src) (v : Src)
  /-- CTX_RESTORE (R226). -/
  | ctxRestore (d : Dst) (a : Src) (v : Src)
  /-- CTX_RESUME (R232). -/
  | ctxResume (d : Dst) (a : Src) (v : Src)
  /-- CTX_DESTROY (R232). -/
  | ctxDestroy (d : Dst) (a : Src) (v : Src)
  /-- CTX_PREEMPT (R222). -/
  | ctxPreempt (d : Dst) (a : Src)
  /-- CTX_FREEZE (R232). -/
  | ctxFreeze (d : Dst) (a : Src)
  /-- ZADD (R67). -/
  | zadd (x : ZReg) (y : ZReg)
  /-- ZSUB (R67). -/
  | zsub (x : ZReg) (y : ZReg)
  /-- ZAND (R67). -/
  | zand (x : ZReg) (y : ZReg)
  /-- ZOR (R67). -/
  | zor (x : ZReg) (y : ZReg)
  /-- ZXOR (R67). -/
  | zxor (x : ZReg) (y : ZReg)
  /-- ZMUL (R67). -/
  | zmul (x : ZReg) (y : ZReg)
  /-- ZDIV (R67). -/
  | zdiv (x : ZReg) (y : ZReg)
  /-- ZMIN (R67). -/
  | zmin (x : ZReg) (y : ZReg)
  /-- ZMAX (R67). -/
  | zmax (x : ZReg) (y : ZReg)
  /-- ZSHL (R67). -/
  | zshl (x : ZReg) (y : ZReg)
  /-- ZSHR (R67). -/
  | zshr (x : ZReg) (y : ZReg)
  /-- ZSAR (R67). -/
  | zsar (x : ZReg) (y : ZReg)
  /-- ZMOV (R67). -/
  | zmov (x : ZReg) (y : ZReg)
  /-- ZNEG (R67). -/
  | zneg (x : ZReg) (y : ZReg)
  /-- ZADDI (R67). -/
  | zaddi (x : ZReg) (imm : BitVec 6)
  /-- ZLI (R67). -/
  | zli (x : ZReg) (imm : BitVec 6)
  /-- ZLD (R67). -/
  | zld (x : ZReg) (y : ZReg) (off : BitVec 2)
  /-- ZST (R67). -/
  | zst (x : ZReg) (y : ZReg) (off : BitVec 2)
  /-- ZLDW (R67). -/
  | zldw (x : ZReg) (y : ZReg) (off : BitVec 2)
  /-- ZSTW (R67). -/
  | zstw (x : ZReg) (y : ZReg) (off : BitVec 2)
  /-- ZLDB (R67). -/
  | zldb (x : ZReg) (y : ZReg) (off : BitVec 2)
  /-- ZSTB (R67). -/
  | zstb (x : ZReg) (y : ZReg) (off : BitVec 2)
  /-- ZJ (R67). -/
  | zj (imm : BitVec 10)
  /-- ZRET (R67). -/
  | zret
  /-- RETRY_DELAY (R214). -/
  | retryDelay (core slot : Nat)
  /-- DELIVERY (R174). -/
  | delivery (n : Nat)
  /-- RETRY (R178). -/
  | retry (n : Nat)
  /-- DISPATCH (R182). -/
  | dispatch (core : Nat)
  /-- PRE_EMPTED (R181). -/
  | preEmpted (core : Nat)
  /-- AGEING (R183). -/
  | ageing (core slot : Nat)
  /-- WAIT_END (R181). -/
  | waitEnd (core slot : Nat)
  /-- CHILD_PLACEMENT (R196). -/
  | childPlacement (die n : Nat)
  /-- LOAD_REFERENCE (R86). -/
  | loadReference (die q : Nat)
  /-- UNLOAD (R86). -/
  | unload (die q : Nat)
  /-- OBJECT_FREED (R87). -/
  | objectFreed (n : Nat)
  /-- QUIESCED (R202). -/
  | quiesced (n : Nat)
  /-- EVICT_COMPLETE (R224). -/
  | evictComplete (n : Nat)
  /-- IN_FLIGHT_DRAIN (R222). -/
  | inFlightDrain (n : Nat)
  /-- TLBI_DRAINED (R231). -/
  | tlbiDrained (n : Nat)
  /-- MXU_INBOX_POST (R249). -/
  | mxuInboxPost (n : Nat)
  /-- MXU_CMD_MMA (R254). -/
  | mxuCmdMma (core : Nat)
  /-- MXU_CMD_MZERO (R255). -/
  | mxuCmdMzero (core : Nat)
  /-- MXU_CMD_MCVT (R257). -/
  | mxuCmdMcvt (core : Nat)
  /-- MXU_CMD_MRESC (R258). -/
  | mxuCmdMresc (core : Nat)
  /-- MXU_CMD_MSTAT (R259). -/
  | mxuCmdMstat (core : Nat)
  /-- MXU_CMD_MANCH (R256). -/
  | mxuCmdManch (core : Nat)
  /-- MXU_CMD_MBPUT (R260). -/
  | mxuCmdMbput (core : Nat)
  /-- MXU_REPLY (R248). -/
  | mxuReply (core : Nat)
  /-- VECTOR_INBOX_POST (R279). -/
  | vectorInboxPost (n : Nat)
  /-- VEC_CMD_VMAP (R284). -/
  | vecCmdVmap (core : Nat)
  /-- VEC_CMD_VFMA (R285). -/
  | vecCmdVfma (core : Nat)
  /-- VEC_CMD_VCMP (R286). -/
  | vecCmdVcmp (core : Nat)
  /-- VEC_CMD_VLOG (R287). -/
  | vecCmdVlog (core : Nat)
  /-- VEC_CMD_VSHF (R288). -/
  | vecCmdVshf (core : Nat)
  /-- VEC_CMD_VRED (R289). -/
  | vecCmdVred (core : Nat)
  /-- VEC_CMD_VXF (R290). -/
  | vecCmdVxf (core : Nat)
  /-- VEC_CMD_VCVT (R291). -/
  | vecCmdVcvt (core : Nat)
  /-- VEC_CMD_VSEL (R292). -/
  | vecCmdVsel (core : Nat)
  /-- VEC_CMD_VPERM (R293). -/
  | vecCmdVperm (core : Nat)
  /-- VECTOR_REPLY (R280). -/
  | vectorReply (core : Nat)
  /-- DOORBELL (R317). -/
  | doorbell (cluster q : Nat)
  /-- QUEUE_POLL (R310). -/
  | queuePoll (cluster q : Nat)
  /-- LADLE_COPY (R305). -/
  | ladleCopy (cluster chan : Nat)
  /-- LADLE_FILL (R305). -/
  | ladleFill (cluster chan : Nat)
  /-- LADLE_RELAYOUT (R307). -/
  | ladleRelayout (cluster chan : Nat)
  /-- LADLE_NOP (R305). -/
  | ladleNop (cluster chan : Nat)
  /-- LADLE_LAUNCH (R305). -/
  | ladleLaunch (cluster chan : Nat)
  /-- LADLE_REPLY (R313). -/
  | ladleReply (cluster chan : Nat)
  /-- RUNNER_INBOX_POST (R326). -/
  | runnerInboxPost (n : Nat)
  /-- KCOMM_BIND_CMD (R328). -/
  | kcommBindCmd (die : Nat)
  /-- KCOMM_FREE_CMD (R328). -/
  | kcommFreeCmd (die comm : Nat)
  /-- KPLAN_CMD (R334). -/
  | kplanCmd (die comm : Nat)
  /-- PLAY (R335). -/
  | play (die comm : Nat)
  /-- RUNNER_SEND_OP (R331). -/
  | runnerSendOp (die : Nat)
  /-- RUNNER_RECV_OP (R331). -/
  | runnerRecvOp (die : Nat)
  /-- RUNNER_MCAST_OP (R331). -/
  | runnerMcastOp (die : Nat)
  /-- RUNNER_WAIT_OP (R331). -/
  | runnerWaitOp (die : Nat)
  /-- RUNNER_ALIGN_OP (R333). -/
  | runnerAlignOp (die : Nat)
  /-- CHUNK_ARRIVAL (R338). -/
  | chunkArrival (n : Nat)
  /-- SEND_ACCEPTED (R331). -/
  | sendAccepted (n : Nat)
  /-- CREDIT_RETURN (R338). -/
  | creditReturn (n : Nat)
  /-- BUDDY_TIMEOUT (R340). -/
  | buddyTimeout (die comm op : Nat)
  /-- RUNNER_SILENT (R340). -/
  | runnerSilent (die comm op : Nat)
  /-- ABORT_TOKEN (R341). -/
  | abortToken (n : Nat)
  /-- REQUEST (R356). -/
  | request (n : Nat)
  /-- ALERT_END (R367). -/
  | alertEnd (stack n : Nat)
  /-- REPLY (R355). -/
  | reply (n : Nat)
  /-- SCRATCHPAD_ACCESS (R154). -/
  | scratchpadAccess (n : Nat)
  /-- SCRUB (R360). -/
  | scrub (stack word : Nat)
  /-- REFRESH (R353). -/
  | refresh (stack bank : Nat)
  /-- LANE_REPAIR (R361). -/
  | laneRepair (stack chan : Nat)
  /-- REPAIR_COMPLETE (R361). -/
  | repairComplete (stack n : Nat)
  /-- REPAIR_TIMEOUT (R362). -/
  | repairTimeout (stack n : Nat)
  /-- REBUILD_COMPLETE (R358). -/
  | rebuildComplete (stack chan : Nat)
  /-- RECKONER_QUERY (R376). -/
  | reckonerQuery (n : Nat)
  /-- RECORD (R373). -/
  | record (set bank : Nat)
  /-- QAPND_PUT_CMD (R382). -/
  | qapndPutCmd (n : Nat)
  /-- QAPND_ADV_CMD (R382). -/
  | qapndAdvCmd (n : Nat)
  /-- QAPND_CLR_CMD (R382). -/
  | qapndClrCmd (n : Nat)
  /-- LAUNCH_QUEUE_RECORD (R395). -/
  | launchQueueRecord (die q : Nat)
  /-- COALESCING_WINDOW (R396). -/
  | coalescingWindow (page : Nat)
  /-- FRAME_DROP (R398). -/
  | frameDrop (f : Frame)
  /-- FRAME_LAUNCH (R398). -/
  | frameLaunch (f : Frame)
  /-- FRAME_COPY (R398). -/
  | frameCopy (f : Frame)
  /-- FRAME_DEFAULT (R398). -/
  | frameDefault (f : Frame)
  /-- CRC_REPLAY (R166). -/
  | crcReplay (link : Nat)
  /-- LINK_DOWN (R399). -/
  | linkDown (node : BitVec 16) (down : Bool)
  /-- NODE_UNREACHABLE (R399). -/
  | nodeUnreachable (node : BitVec 16)
  /-- MODULE_RESET (R393). -/
  | moduleReset (b : Boot)
  /-- ATTESTATION_REPORT (R394). -/
  | attestationReport (nonce : BitVec 384)
  /-- CLOCK_CHANGE (R401). -/
  | clockChange (mhz : BitVec 10) (therm pwr : Bool)
  /-- REGISTER_WRITE (R4): a store of a system core. -/
  | registerWrite (place : HartPlace) (size : BitVec 2) (value : BitVec 64)
  /-- UNASSIGNED_ENCODING (R64): the bits as fetched and the cause that the decoder names. -/
  | unassignedEncoding (raw : BitVec 32) (cause : BitVec 10)
  /-- BUDDY_COPY_REQUEST (R340). -/
  | buddyCopyRequest (n : Nat)
  /-- BAD_FCS_FRAME (R397). -/
  | badFcsFrame (port : Nat)
  /-- PRIORITY_FLOW_CONTROL_FRAME (R397). -/
  | priorityFlowControlFrame (port : Nat) (enable : BitVec 8) (pause : Vector (BitVec 16) 8)
  deriving DecidableEq, Repr

end Sys2Proof
end

