-- ==== Sys2Proof/Machine/State.lean ====
section
/-! DEFINITION. All the state the spec gives one HVM4-A module, as plain data, and the state after
module reset. -/

namespace Sys2Proof.Machine

/-- Why the model stops. -/
inductive Fault where
  /-- Raised by an instruction row executed while the agent that moves is not a core with a running
  activation: no other path starts a program on a core (R12). Safe. -/
  | noActivation
  deriving DecidableEq, Repr

/-- Why the model has no meaning for an instruction. -/
inductive Refusal where
  /-- Raised by an arm of the dispatcher that has no meaning yet. Safe. -/
  | notModelled (mnemonic : String)
  deriving DecidableEq, Repr

/-- A message: header and payload (R170). -/
structure Msg where
  hdr0 : Word
  hdr1 : Word
  pay  : Vector Word 6
  deriving DecidableEq, Repr

/-- Which pool entry a held message occupies (R174, R175). -/
inductive Entry where
  | quota
  | reserved (rtag : BitVec 16)
  | claimed
  deriving DecidableEq, Repr

/-- A held message, with the cycle of its arrival (R176, R182). -/
structure Held where
  msg   : Msg
  arr   : Nat
  entry : Entry
  deriving DecidableEq, Repr

/-- A mailbox (R175 to R177, R190): held messages in arrival order; `arrivals` counts the messages it has
accepted (R225). -/
structure Mailbox where
  conf    : Bool
  ord     : Bool
  quota   : BitVec 7
  mask    : BitVec 256
  nextKey : BitVec 32
  held    : List Held
  arrivals : Word
  deriving DecidableEq, Repr

/-- What a blocked activation waits for (R181). -/
inductive Wait where
  | beadRoom (b : Fin 4)                                  -- R91: a counter below 63
  | beads (ld st cp tl : BitVec 6)                        -- R157
  | word (key : Nat) (va : Word) (f : BitVec 2) (v : Word) (d : Dst)  -- R156: the next satisfying write
  | woken (w : Word) (d : Dst)                            -- R156, R205: woken with this value
  | access (id : Nat)                                     -- R141: the reply to this request
  | drained                                               -- R155: earlier accesses are held
  | held (key : Nat)                                      -- R362, R399: an access of the instruction is held
  | barrier (handle : Word) (t : BitVec 32) (d : Dst)     -- R205
  | reservation                                           -- R179
  | guards (needs : List (Nat × Nat))                     -- R159: entries needed by core
  | mxuRoom                                               -- R244
  | vectorRoom                                            -- R275
  | ladleRoom (cluster chan : Nat)                        -- R314
  | runnerRoom (die inbox : Nat)                          -- R339: inbox 4 is the control inbox
  | bankRoom (set : Nat)                                  -- R376
  | pool (core : Nat)                                     -- R180
  | launchRoom (die : Nat)                                -- R195
  | post (id : Nat) (va : Word) (len cost : Nat)          -- R145: a word-7 post
  | supervisor (id : Nat)                                 -- R231, R232
  | retryAt (ns : Nat)                                    -- R214
  deriving DecidableEq, Repr

/-- An actor's unfinished activation (R169, R181). -/
inductive Phase where
  | idle
  | ready
  | running
  | blocked (w : Wait)
  deriving DecidableEq, Repr

/-- The state of a slot (R168). -/
inductive SlotStatus where
  | empty
  | live
  | removing
  deriving DecidableEq, Repr

/-- Membership of a launch (R196, R197). -/
structure Membership where
  die   : Nat
  id    : Nat
  child : Nat
  deriving DecidableEq, Repr

/-- Retries of a fault at one level and PC (R214). -/
structure Retries where
  level : Nat
  pc    : BitVec 52
  count : Nat
  deriving DecidableEq, Repr

/-- One actor slot; `inst` is the instruction last fetched for it (R65) (R88, R93, R94, R100, R175 to R185, R211, R224). -/
structure Slot where
  status   : SlotStatus
  cls      : BitVec 2
  s        : Vector Word 64
  q        : Vector Word 8
  l        : Word
  a        : Vector Word 6
  p        : Vector Bool 8
  t        : Vector (BitVec 256) 32
  i        : Vector (BitVec 32) 4
  c        : Vector (BitVec 32) 16
  lb       : Vector (BitVec 32) 4
  lcmap    : Word
  beads    : Vector (BitVec 6) 4
  pc       : BitVec 52
  inst     : BitVec 32
  flags    : BitVec 7
  trclim   : BitVec 16
  step     : BitVec 32
  rescmode : BitVec 1
  used     : BitVec 32
  fcause   : Word
  fpc      : BitVec 52
  finst    : BitVec 32
  faddr    : Word
  feng     : Word
  emu      : Word
  epc      : BitVec 52
  einst    : BitVec 32
  emuEntry : BitVec 52
  asid     : BitVec 16
  ctxid    : BitVec 32
  jobcol   : BitVec 6
  budget   : BitVec 32
  priv     : Word
  prio     : BitVec 2
  desc     : Word
  gen      : Word
  act      : BitVec 3
  launch   : Option Membership
  mb       : Vector Mailbox 4
  granted  : Nat
  resv     : List (BitVec 16)
  rtagNext : BitVec 16
  postLine : Option Nat
  postBuf  : Vector Word 8
  hdr0     : Word
  hdr1     : Word
  phase    : Phase
  basePrio : BitVec 2
  since    : Nat
  /-- Full 4,096-cycle periods ready since `since` (R183). -/
  aged     : Nat
  arrived  : Nat
  ran      : Nat
  keyed    : Option (Fin 4)
  cand     : Option (Fin 4 × Nat)
  frozen   : Bool
  exiting  : Bool
  retries  : List Retries
  /-- The save areas whose overflow rings still hold messages after a restore, oldest first (R226). -/
  rings    : List (Word × BitVec 16)
  pw       : Vector (Word × Word) 8
  deriving DecidableEq, Repr

/-- Which storage a guarded range lies in (R158): physical bytes of the core's own window, or
virtual bytes of an ASID as the issuing core accesses them. -/
inductive GuardSpace where
  | phys
  | virt (asid : BitVec 16)
  deriving DecidableEq, Repr

/-- One of the 16 entries of a range guard table (R158, R207), with its number. -/
structure Guard where
  idx   : Nat
  space : GuardSpace
  lo    : Nat
  len   : Nat
  write : Bool
  /-- The command it belongs to, or nothing for an entry of RGSET (R207). -/
  cmd   : Option Nat
  /-- The context in whose name it stands (R168, R252). -/
  core  : Nat
  ctxid : BitVec 32
  deriving DecidableEq, Repr

/-- Where a context of the context map is (R227): its slot, its save area's address in the address
space of the CTX.evict, or nowhere: removed from a save area, with the bead counters of its commands. -/
inductive CtxWhere where
  | slot (n : Fin 8)
  | saved (area : Word) (asid : BitVec 16)
  | removed (beads : Vector (BitVec 6) 4)
  deriving DecidableEq, Repr

/-- One entry of a core's context map (R227). For an evicted context, `types` are the message types with EVC = 1. -/
structure Ctx where
  id     : BitVec 32
  loc    : CtxWhere
  types  : List Nat
  /-- The launch an evicted actor belongs to, which its save area does not hold (R197). -/
  launch : Option Membership
  /-- Whether the evicted actor is removed when its activation retires (R191). -/
  exiting : Bool
  /-- The retries of its unfinished activation (R214), which the save area does not hold. -/
  retries : List Retries
  /-- The save areas of earlier evictions whose rings still hold messages for it, oldest first (R226). -/
  rings  : List (Word × BitVec 16)
  deriving DecidableEq, Repr

/-- Who issued an engine command (R211, R227): the core, the context and the instruction. -/
structure Issuer where
  core  : Nat
  ctxid : BitVec 32
  fpc   : BitVec 52
  finst : BitVec 32
  deriving DecidableEq, Repr

/-- An accepted engine command: 64 bytes (R246, R276, R303, R326, R375), a number of its own, its
issuer where it has one, whether an engine instruction translated its ranges, and how often LANE has
retried it. -/
structure Cmd where
  id     : Nat
  w      : Vector Word 8
  issuer : Option Issuer
  insn   : Bool
  tries  : Nat
  /-- Whether its range guards are entered (R252), and the core in whose pool it has claimed an entry (R180). -/
  entered : Bool
  claimed : Option Nat
  /-- The virtual ranges that its issue translated: address space, start and bytes (R139, R265). -/
  spans   : List (BitVec 16 × Nat × Nat)
  deriving DecidableEq, Repr

/-- A started command that has performed its writes and waits to reply: cause (0 for none), flags,
poison carried (Ladle), a2 of a launch reply, and the cycle from which it may reply. -/
structure Started where
  cmd    : Cmd
  cause  : BitVec 10
  flags  : BitVec 7
  poison : Bool
  extra  : Word
  addr   : Word
  deriving DecidableEq, Repr

/-- Accumulator tile state beside its elements (R238). -/
structure Tile where
  anchor  : BitVec 16
  hwx     : BitVec 16
  trc     : BitVec 16
  widen   : Bool
  invalid : Bool
  poison  : Bool
  deriving DecidableEq, Repr

/-- A hardware barrier (R203). -/
structure Barrier where
  alloc : Bool
  n     : BitVec 16
  cnt   : BitVec 16
  phase : BitVec 32
  asid  : BitVec 16
  owner : BitVec 12
  scope : BitVec 3
  deriving DecidableEq, Repr

/-- One TLB entry (R134, R139): the leaf found for a page of an ASID, with the page's size in bits. -/
structure TlbEntry where
  asid : BitVec 16
  page : Nat
  bits : Nat
  leaf : Word
  deriving DecidableEq, Repr

/-- One core beside its slots. -/
structure Core where
  vect    : Vector Word 256
  fown    : Vector (BitVec 18) 16
  cpol    : BitVec 24
  trapdst : BitVec 22
  astab   : Word
  guards  : List Guard
  ctxs    : List Ctx
  ctxNext : BitVec 32
  claimed : Nat
  joins   : Nat
  running : Option (Fin 8)
  barr    : AMap Barrier
  tlb     : List TlbEntry
  seqs    : AMap (BitVec 16)
  tiles   : Vector Tile 4
  mxuIn   : List Cmd
  mxuRun  : List Started
  mxuFree : Nat
  vecIn   : List Cmd
  vecRun  : List Started
  vecFree : Nat
  deriving DecidableEq, Repr

/-- A copy queue bound to a Ladle (R309, R312). -/
structure CopyQueue where
  bound  : Bool
  /-- The core that bound it, whose ASTAB translates its addresses, and the binder's class (log 22). -/
  core   : Nat
  cls    : BitVec 2
  cb     : Word
  ring   : Word
  cap    : Nat
  chan   : BitVec 2
  colour : BitVec 6
  anycol : Bool
  asid   : BitVec 16
  rdidx  : Word
  fcnt   : BitVec 16
  cause  : BitVec 10
  pcnt   : BitVec 16
  ready  : Bool
  deriving DecidableEq, Repr

/-- A translated address: its leaf, the page's size in bits, the memory key, and the entry that a walk found for the
TLB. -/
structure Xlate where
  leaf : Word
  bits : Nat
  key  : Nat
  fill : Option TlbEntry
  deriving DecidableEq, Repr

/-- Bytes of a footprint that lie in one 64 KiB page: virtual address, translation of the page, key and count, and
whether a TLBI has removed the translation, so that it is walked again (R231, R306). -/
structure Piece where
  va    : Nat
  x     : Xlate
  key   : Nat
  n     : Nat
  stale : Bool
  deriving DecidableEq, Repr

/-- What a packet has still to move, in iteration order (R305): from source pieces, or for a fill from none, to
destination pieces; and the core, address space and class whose translations it uses. -/
structure Work where
  core : Nat
  asid : BitVec 16
  cls  : BitVec 2
  src  : List Piece
  dst  : List Piece
  deriving DecidableEq, Repr

/-- A packet that a Ladle channel executes (R298): from its inbox, or from queue `q`, with what it has still to move. -/
structure Packet where
  started : Started
  queue   : Option Nat
  work    : Option Work
  deriving DecidableEq, Repr

/-- A Ladle channel (R298). `turn` is the participant served last: 0 the inbox, q + 1 queue q. -/
structure Channel where
  inbox : List Cmd
  cur   : Option Packet
  turn  : Nat
  deriving DecidableEq, Repr

/-- One cluster. -/
structure Cluster where
  chans  : Vector Channel 4
  queues : Vector CopyQueue 64
  barr   : AMap Barrier
  policy : BitVec 24
  deriving DecidableEq, Repr

/-- Who launched (R195, R197): the launching slot and context, or a queue of the scheduler. -/
inductive Launcher where
  | slot (core : Nat) (slot : Fin 8) (ctxid : BitVec 32) (cls : BitVec 2)
  | queue (q : Nat)
  | packet
  | restart
  deriving DecidableEq, Repr

/-- A launch accepted by a die's scheduler (R195 to R197). -/
structure Launch where
  id        : Nat
  words     : Vector Word 8
  msgs      : List Msg
  pws       : List (Word × Word)
  launcher  : Launcher
  asid      : BitVec 16
  act       : BitVec 3
  cores     : List Nat
  placed    : Nat
  completed : Nat
  faulted   : Nat
  first     : Option (Nat × BitVec 10)
  committed : Bool
  waiting   : List Nat
  sent      : List (Nat × Nat)
  /-- The launcher's job colour (R170, R395, R407). -/
  jobcol    : BitVec 6
  deriving DecidableEq, Repr

/-- A launch queue descriptor (R395). -/
structure LaunchQueue where
  cb     : Word
  ring   : Word
  cw     : Word
  asid   : BitVec 16
  colour : BitVec 8
  /-- Slots that hold a frame's record: slot number, buffer address and length (R398). -/
  frames : List (Nat × Word × Word)
  deriving DecidableEq, Repr

/-- An item of a work list (R199, R200). -/
structure WorkItem where
  core   : Nat
  colour : BitVec 6
  lo     : Word
  hi     : Word
  deriving DecidableEq, Repr

/-- One op of a plan (R330). -/
structure PlanOp where
  kind : Nat
  red  : Nat
  sb   : Nat
  db   : Nat
  dep  : Nat
  succ : List Nat
  peer : Nat
  slot : Nat
  soff : Nat
  len  : Nat
  doff : Nat
  deriving DecidableEq, Repr

/-- A plan (R329). -/
structure Plan where
  nbuf : Nat
  head : Nat
  bufs : List Nat
  ops  : List PlanOp
  deriving DecidableEq, Repr

/-- Where an op of a play stands (R331, R340): waiting with its counter, the time in ns since which it is
enabled and the time at which the buddy was asked (0 for not yet); started, with the acceptances that it
waits for; or completed. -/
inductive OpState where
  | waiting (left : Nat) (since : Nat) (asked : Nat)
  | started (left : Nat)
  | completed
  deriving DecidableEq, Repr

/-- A running play (R335). -/
structure Play where
  cmd    : Cmd
  key    : Nat
  commit : Word
  bufs   : List (Word × Nat)
  ops    : List OpState
  abort  : Option (BitVec 10 × Nat)
  deriving DecidableEq, Repr

/-- What a chunk is (R340): data for a receiver, the copy for the sender's buddy, or the buddy's answer. -/
inductive ChunkKind where
  | data
  | copy
  | answer
  deriving DecidableEq, Repr

/-- A chunk or token (R331, R338, R340): the die keys (node·4 + die) of sender and receiver, their ranks,
the group, channel, staging slot, play number and op, and the bytes with one poison mark a byte. -/
structure Chunk where
  kind   : ChunkKind
  src    : Nat
  rank   : Nat
  dst    : Nat
  toRank : Nat
  group  : Nat
  comm   : Nat
  slot   : Nat
  play   : Nat
  op     : Nat
  data   : List (Byte × Bool)
  deriving DecidableEq, Repr

/-- An abort token (R341): the receiving die's key and rank, and the play that it aborts. -/
structure AbortToken where
  dst    : Nat
  toRank : Nat
  group  : Nat
  comm   : Nat
  play   : Nat
  cause  : BitVec 10
  origin : Nat
  deriving DecidableEq, Repr

/-- A communicator of a Runner (R325). `credits` are the (rank, slot, play) triples in use by this sender,
`buddyUse` the same triples of the copies at its buddy (R340), `seen` the (rank, slot, play) of the chunks it
has accepted, and `aborts` the abort tokens of plays that have not started here. -/
structure Comm where
  bound   : Bool
  /-- The core whose ASTAB translates its buffers (log 22). -/
  core    : Nat
  group   : Nat
  asid    : BitVec 16
  rank    : Nat
  ranks   : List Nat
  prio    : BitVec 2
  stg     : Nat
  pops    : Nat
  chunk   : Nat
  timeout : Nat
  plan    : Option Plan
  playNo  : Nat
  inbox   : List Cmd
  play    : Option Play
  passed  : Nat
  staged  : List Chunk
  copies  : List Chunk
  credits : List (Nat × Nat × Nat)
  buddyUse : List (Nat × Nat × Nat)
  seen    : List (Nat × Nat × Nat)
  aborts  : List (Nat × BitVec 10 × Nat)
  deriving DecidableEq, Repr

/-- An entry of the die range table (R158, R335). -/
structure BufferRange where
  comm  : Nat
  asid  : BitVec 16
  lo    : Nat
  len   : Nat
  write : Bool
  deriving DecidableEq, Repr

/-- One die. -/
structure Die where
  launches : List Launch
  nextId   : Nat
  lqs      : Vector LaunchQueue 16
  work     : List WorkItem
  comms    : Vector Comm 4
  control  : List Cmd
  turn     : Nat
  /-- The op that the idle Runner starts next: communicator and op (R336). -/
  chosen   : Option (Nat × Nat)
  ranges   : List BufferRange
  barr     : AMap Barrier
  policy   : BitVec 12
  deriving DecidableEq, Repr

/-- The condition of an 8-byte word of a stack that ECC finds (R358). -/
inductive Ecc where
  | correctable
  | lost
  deriving DecidableEq, Repr

/-- What a repair holds (R361). -/
inductive HoldKind where
  | row
  | lane
  | bank
  | alert
  deriving DecidableEq, Repr

/-- A region held for a repair or an alert (R361, R367): kind, region number, cycle-independent due
time in ns, the physical address that named it, and the step in which it began. -/
structure Hold where
  kind   : HoldKind
  region : Nat
  due    : Nat
  pa     : Nat
  born   : Nat
  deriving DecidableEq, Repr

/-- What an element stands for: (−1)^neg · m · 2^e, an infinity, or a NaN (signalling or not). -/
inductive Val where
  | fin (neg : Bool) (m : Nat) (e : Int)
  | inf (neg : Bool)
  | nan (sig : Bool)
  deriving DecidableEq, Repr

/-- A bank's triple and what its record says beside it (R373, R377). -/
structure Triple where
  m         : Val
  l         : Val
  acc       : List Val
  excl      : List Nat
  stop      : Bool
  widen     : Bool
  corrected : Bool
  held      : Bool
  deriving DecidableEq, Repr

/-- Where the scan of a bank stands (R376 to R380): the rows still to be read, the bytes read of the first of
them (its key row, then its value row), whether that row is excluded, the triple so far, and the address at
which the scan ends with 0x382. -/
structure Scan where
  bank   : Nat
  todo   : List Nat
  got    : List Byte
  bad    : Bool
  triple : Triple
  fail   : Option Word
  deriving DecidableEq, Repr

/-- A Reckoner command from its issue to its reply (R374 to R382): the command, the query elements, the
leaves of the key page (or of QAPND's destination) and of the value page, and for QAPND the destination's
ROWS and the source's RSTRIDE. `taken` from its arrival at the controller on; then the banks that have not
written their record, and their scans. -/
structure Query where
  cmd     : Cmd
  q       : List (BitVec 16)
  kleaf   : Word
  vleaf   : Word
  limit   : Nat
  stride  : Nat
  taken   : Bool
  /-- The time in ns at which the controller sent it to its banks (R373, R376). -/
  arrived : Nat
  left    : List Nat
  scans   : List Scan
  deriving DecidableEq, Repr

/-- One memory stack (R353 to R367, R370, R371). Reckoner bank set e·8 + x has its queue at that
number. -/
structure Stack where
  scrubp  : BitVec 8
  ccn     : BitVec 13
  rows    : BitVec 16
  banks   : BitVec 8
  lanes   : BitVec 8
  subcnt  : BitVec 32
  corr    : BitVec 24
  rebuilt : BitVec 16
  uncorr  : BitVec 16
  drop    : BitVec 8
  rebuild : BitVec 32
  failed  : BitVec 32
  ecc     : AMap Ecc
  rowErr  : AMap Nat
  /-- The scrub period that `rowErr` counts in (R361). -/
  errPeriod : Nat
  rowFail : AMap Nat
  /-- Rows that have failed and stay in service, each with its bank (R361). -/
  rowsBad : List (Nat × Nat)
  bankOut : List Nat
  holds   : List Hold
  acts    : AMap Nat
  defer   : AMap Nat
  rowcnt  : AMap (BitVec 32)
  queues  : AMap (List Query)
  deriving DecidableEq, Repr

/-- What an access asks of the owner of its address (R140, R150 to R153). -/
inductive MemOp where
  | read (n : Nat)
  | write (n : Nat) (v : Nat)
  | amo (f : BitVec 3) (y : Word)
  | a96 (y : BitVec 96)
  | cas (n : Nat) (e v : Word)
  | claim (n : Word)
  | rows                       -- QSTAT rows (R383)
  | unit                       -- QSTAT unit (R383)
  deriving DecidableEq, Repr

/-- What the issuing activation does with the answer of an access. -/
inductive Cont where
  | load (d : Dst) (n : Nat) (sx : Bool)
  | handle (t : HandleNo)
  | window (d : Dst) (n : Nat) (sx : Bool) (oob : Bool)
  | value (d : Dst)
  | store
  deriving DecidableEq, Repr

/-- An access request on its way to the owner of its address (R141, R154, R355): from a waiting
activation (`cont`), or posted. `mmio` accesses go to the register's own unit. One that has `arrived` at its
controller, and was judged there, waits for the end of a hold (R362, R366): the arrived ones come first in the list, in
the order of their arrival. -/
structure Request where
  id     : Nat
  asid   : BitVec 16
  core   : Nat
  slot   : Fin 8
  ctxid  : BitVec 32
  key    : Nat
  va     : Word
  op     : MemOp
  tol    : Bool
  nan    : Bool
  cont   : Option Cont
  len    : Nat
  cost   : Nat
  arrived : Bool
  deriving DecidableEq, Repr

/-- An answer on its way back (R355). -/
structure Answer where
  id    : Nat
  key   : Nat
  core  : Nat
  slot  : Fin 8
  ctxid : BitVec 32
  va    : Word
  cause : BitVec 10
  value : Nat
  cont  : Cont
  len   : Nat
  cost  : Nat
  deriving DecidableEq, Repr

/-- How the fate of a message is reported (R188, R145, R180, R216). -/
inductive Report where
  | nothing
  | bead
  | status (off : Nat)
  | post (id : Nat)
  | engine (origin : BitVec 4)
  | notice
  deriving DecidableEq, Repr

/-- The translation through which a message or command was posted (R139, R145, R188): a number of its own, the
address space and the address in it. -/
structure Via where
  id   : Nat
  asid : BitVec 16
  va   : Word
  deriving DecidableEq, Repr

/-- A message in flight (R176, R178): its target core, sender and report, whether it holds a
claimed pool entry, refusals so far, time of the send and of the next attempt in ns, and the translation through which
it was sent, if any. -/
structure Flight where
  dst     : Nat
  msg     : Msg
  core    : Nat
  ctxid   : BitVec 32
  report  : Report
  claimed : Bool
  tries   : Nat
  born    : Nat
  due     : Option Nat
  via     : Option Via
  deriving DecidableEq, Repr

/-- Which inbox a word-7 post reaches (R14). -/
inductive Inbox where
  | mxu (core : Nat)
  | vector (core : Nat)
  | runner (die : Nat)
  deriving DecidableEq, Repr

/-- A posted command on its way to an inbox (R145, R249, R279, R326). -/
structure Post where
  id     : Nat
  inbox  : Inbox
  w      : Vector Word 8
  poster : Option Issuer
  tries  : Nat
  born   : Nat
  due    : Option Nat
  via    : Option Via
  deriving DecidableEq, Repr

/-- A supervisor operation in progress (R222, R224, R231). What a TLBI waits for is named by its number and the part of
its accesses. -/
inductive SupOp where
  | evict (core : Nat) (slot : Fin 8) (area : Word) (asid : BitVec 16)
  | preempt (scope : Nat) (anchor : Nat) (colour : BitVec 6) (count : Nat) (again : List (Nat × Launch))
      (reqs : List Nat)
  | tlbi (accesses : List (Nat × Nat))
  deriving DecidableEq, Repr

/-- A supervisor operation with its number, its issuer, and its result once it has one. -/
structure Sup where
  id     : Nat
  core   : Nat
  ctxid  : BitVec 32
  op     : SupOp
  result : Option Word
  deriving DecidableEq, Repr

/-- An armed quiescence detector (R202). -/
structure Detector where
  scope  : Nat
  set    : Nat
  colour : BitVec 6
  core   : Nat
  slot   : Fin 8
  ctxid  : BitVec 32
  cls    : BitVec 2
  type   : BitVec 8
  mb     : BitVec 2
  /-- The job colour of the arming slot (R170). -/
  jobcol : BitVec 6
  deriving DecidableEq, Repr

/-- An entry of the module's colour table (R220). -/
structure Colour where
  strm       : Bool
  restart    : Word
  ckasid     : BitVec 16
  preempting : Bool
  epoch      : BitVec 32
  deriving DecidableEq, Repr

/-- A load descriptor that is unloading or freed (R86, R87): its address, its generation and whether
the object has been freed. -/
structure Unload where
  desc  : Word
  asid  : BitVec 16
  gen   : Word
  freed : Bool
  deriving DecidableEq, Repr

/-- An object reference of a launch queue or copy queue: queue number, descriptor, generation, and
whether the queue has processed its unload (R86). -/
structure QueueRef where
  queue : Nat
  desc  : Word
  gen   : Word
  gone  : Bool
  deriving DecidableEq, Repr

/-- A retired frame (R365, R366). -/
structure Retired where
  frame    : Nat
  deadline : Nat
  deriving DecidableEq, Repr

/-- An Ethernet port (R397): for each priority the time in ns until which its transmission is paused, and
the frames with a bad FCS. -/
structure Port where
  paused : Vector Nat 8
  badFcs : Nat
  deriving DecidableEq, Repr

/-- A system core as far as this spec describes it (R392): whether it has been started, the interrupt
identities pending in its IMSIC, and its post buffer (R14, R145). -/
structure Hart where
  started  : Bool
  entry    : Word
  pending  : List Nat
  postLine : Option Nat
  postBuf  : Vector Word 8
  deriving DecidableEq, Repr

/-- The system die and what hangs on it (R392 to R401). -/
structure SDie where
  bootstat : BitVec 8
  /-- The system cores (R392), by number. -/
  harts    : AMap Hart
  /-- The HBM granules that the configuration block reserves for the system cores (R392, R393). -/
  reserved : List Nat
  /-- The boot source and whether the PCIe attachment is enabled, as the straps set them (R393, R400). -/
  source   : BitVec 8
  pcie     : Bool
  /-- The model's own: the number of the boot in force, on which the report's unnamed bytes depend (R394). -/
  boot     : Nat
  /-- The digests of the three images that the boot in force has measured (R394), where the model knows them. -/
  measured : Option (Vector (BitVec 384) 3)
  evtpg    : AMap Word
  evtcfg   : BitVec 16
  pageSeq  : AMap (BitVec 32)
  msiDue   : AMap Nat
  lastMsi  : AMap Nat
  /-- The MSIs sent, newest first: target hart and interrupt identity (R396). -/
  msis     : List (Nat × Nat)
  throt    : BitVec 32
  mhz      : BitVec 10
  therm    : Bool
  pwr      : Bool
  flow     : AMap (BitVec 512)
  rxIndex  : AMap Nat
  drops    : Nat
  defRing  : List Frame
  ports    : Vector Port 8
  /-- The latest attestation report and its signature (R394). -/
  report   : Option (BitVec 2048 × BitVec 768)
  deriving DecidableEq, Repr

/-- The module's own registers and units. -/
structure Module where
  policy   : BitVec 12
  colours  : Vector Colour 64
  gtb      : Word
  rlogb    : Word
  rlogOvf  : Bool
  rlogCap  : BitVec 16
  rlogHead : BitVec 16
  rlogTail : BitVec 16
  rlogSeq  : BitVec 32
  grace    : BitVec 32
  stkdst   : BitVec 22
  retdst   : Vector (Bool × BitVec 22) 16
  barr     : AMap Barrier
  detect   : List Detector
  feat     : Vector Word 8
  nodeX    : BitVec 8
  nodeY    : BitVec 8
  removals : Nat
  down     : List (BitVec 16 × Nat)
  lost     : List (BitVec 16)
  retired  : List Retired
  unloads  : List Unload
  refs     : List QueueRef
  deriving DecidableEq, Repr

/-- The module's traffic: requests, answers, messages, posts, chunks and acknowledgements. -/
structure Net where
  reqs    : List Request
  answers : List Answer
  flights : List Flight
  posts   : List Post
  chunks  : List Chunk
  acks    : List Chunk
  credits : List Chunk
  tokens  : List AbortToken
  asks    : List Chunk
  sups    : List Sup
  deriving DecidableEq, Repr

/-- Which agent takes the next step. -/
inductive Mover where
  | core (c : Nat)
  | event (e : Instr)
  | idle
  deriving DecidableEq, Repr

/-- The whole module. `mover`, `tick`, `ns`, `nextId`, `inputs` and `stuck` are the model's own; `stuck` is
the memory key of a held access that the step now taken has met, and no state between steps has one. -/
structure State where
  mem      : List Host.Cell
  poison   : List Nat
  cores    : AMap Core
  slots    : AMap Slot
  clusters : Vector Cluster 16
  dies     : Vector Die 4
  hbm      : Vector Stack 8
  module   : Module
  sdie     : SDie
  net      : Net
  cycle    : Nat
  ns       : Nat
  tick     : Nat
  nextId   : Nat
  mover    : Mover
  inputs   : List Instr
  stuck    : Option Nat
  deriving DecidableEq, Repr

/-- An unconfigured mailbox (R88). -/
def Mailbox.reset : Mailbox := ⟨false, false, 0, 0, 0, [], 0⟩

/-- A slot with the values R88 gives a created actor and no actor in it (R96, log 1). -/
def Slot.reset : Slot where
  status := .empty
  cls := 0
  s := .replicate 64 0
  q := .replicate 8 0
  l := 0
  a := .replicate 6 0
  p := #v[true, false, false, false, false, false, false, false]
  t := .replicate 32 0
  i := .replicate 4 0
  c := .replicate 16 0
  lb := .replicate 4 0
  lcmap := 0
  beads := .replicate 4 0
  pc := 0
  inst := 0
  flags := 0
  trclim := 0xFFFF#16
  step := 0
  rescmode := 0
  used := 0
  fcause := 0
  fpc := 0
  finst := 0
  faddr := 0
  feng := 0
  emu := 0
  epc := 0
  einst := 0
  emuEntry := 0
  asid := 0
  ctxid := 0
  jobcol := 0
  budget := 0
  priv := 0
  prio := 0
  desc := 0
  gen := 0
  act := 0
  launch := none
  mb := .replicate 4 .reset
  granted := 0
  resv := []
  rtagNext := 1
  postLine := none
  postBuf := .replicate 8 0
  hdr0 := 0
  hdr1 := 0
  phase := .idle
  basePrio := 0
  since := 0
  aged := 0
  arrived := 0
  ran := 0
  keyed := none
  cand := none
  frozen := false
  exiting := false
  retries := []
  rings := []
  pw := .replicate 8 (0, 0)

/-- A tile after module reset (R238). -/
def Tile.reset : Tile := ⟨0, 0x8000#16, 0, false, false, true⟩

/-- A core after module reset (R96, R213, R216, R227). -/
def Core.reset : Core where
  vect := .replicate 256 0
  fown := .replicate 16 0
  cpol := 0
  trapdst := 0
  astab := 0
  guards := []
  ctxs := []
  ctxNext := 1
  claimed := 0
  joins := 0
  running := none
  barr := []
  tlb := []
  seqs := []
  tiles := .replicate 4 .reset
  mxuIn := []
  mxuRun := []
  mxuFree := 0
  vecIn := []
  vecRun := []
  vecFree := 0

/-- A barrier that nobody has allocated. -/
def Barrier.reset : Barrier := ⟨false, 0, 0, 0, 0, 0, 0⟩

/-- A copy queue that is not bound (R312). -/
def CopyQueue.reset : CopyQueue := ⟨false, 0, 0, 0, 0, 0, 0, 0, false, 0, 0, 0, 0, 0, false⟩

/-- A cluster after module reset. -/
def Cluster.reset : Cluster := ⟨.replicate 4 ⟨[], none, 0⟩, .replicate 64 .reset, [], 0⟩

/-- A communicator that is not bound (R325). -/
def Comm.reset : Comm :=
  ⟨false, 0, 0, 0, 0, [], 0, 0, 0, 0, 0, none, 0, [], none, 0, [], [], [], [], [], []⟩

/-- A die after module reset. -/
def Die.reset : Die :=
  ⟨[], 1, .replicate 16 ⟨0, 0, 0, 0, 0, []⟩, [], .replicate 4 .reset, [], 0, none, [], [], 0⟩

/-- A stack after module reset (R363; CCN and the spare counts: log 12). -/
def Stack.reset : Stack :=
  ⟨24, 0, 0, 0, 0, 0, 0, 0, 0, 0, 0, 0, [], [], 0, [], [], [], [], [], [], [], []⟩

/-- The module's registers after module reset. -/
def Module.reset : Module where
  policy := 0
  colours := .replicate 64 ⟨false, 0, 0, false, 0⟩
  gtb := 0
  rlogb := 0
  rlogOvf := false
  rlogCap := 0
  rlogHead := 0
  rlogTail := 0
  rlogSeq := 1
  grace := 893
  stkdst := 0
  retdst := .replicate 16 (false, 0)
  barr := []
  detect := []
  feat := #v[Config.feat0, 0, 0, 0, 0, 0, 0, 0]
  nodeX := 0
  nodeY := 0
  removals := 0
  down := []
  lost := []
  retired := []
  unloads := []
  refs := []

/-- A system core that has not been started. -/
def Hart.reset : Hart := ⟨false, 0, [], none, .replicate 8 0⟩

/-- The system die after module reset (R393, R396, R401). -/
def SDie.reset : SDie where
  bootstat := 0
  harts := [(0, { Hart.reset with started := true })]
  reserved := []
  source := 0
  pcie := false
  boot := 0
  measured := none
  evtpg := []
  evtcfg := 0
  pageSeq := []
  msiDue := []
  lastMsi := []
  msis := []
  throt := 0
  mhz := 940
  therm := false
  pwr := false
  flow := []
  rxIndex := []
  drops := 0
  defRing := []
  ports := .replicate 8 ⟨.replicate 8 0, 0⟩
  report := none

/-- The module right after reset, boot completed (R96, R393). -/
def State.reset : State where
  mem := []
  poison := []
  cores := []
  slots := []
  clusters := .replicate 16 .reset
  dies := .replicate 4 .reset
  hbm := .replicate 8 .reset
  module := .reset
  sdie := .reset
  net := ⟨[], [], [], [], [], [], [], [], [], []⟩
  cycle := 0
  ns := 0
  tick := 0
  nextId := 0
  mover := .idle
  inputs := []
  stuck := none

end Sys2Proof.Machine
end

