-- ==== Sys2Proof/Machine/Access.lean ====
section
/-! DEFINITION. Reading and replacing the parts of State, and the numbers that name cores, slots and
scope sets (R8, R9). -/

namespace Sys2Proof.Machine

/-- The number of slot `n` of core `c` in the slot map. -/
def slotKey (c n : Nat) : Nat := c * 8 + n

/-- The core of a slot number. -/
def keyCore (k : Nat) : Nat := k / 8

/-- The slot of a slot number. -/
def keySlot (k : Nat) : Fin 8 := ⟨k % 8, Nat.mod_lt _ (by decide)⟩

def State.slot (s : State) (k : Nat) : Slot := AMap.get .reset s.slots k
def State.core (s : State) (c : Nat) : Core := AMap.get .reset s.cores c
def State.setSlot (s : State) (k : Nat) (v : Slot) : State := { s with slots := s.slots.set k v }
def State.setCore (s : State) (c : Nat) (v : Core) : State := { s with cores := s.cores.set c v }
def State.modSlot (s : State) (k : Nat) (f : Slot → Slot) : State := s.setSlot k (f (s.slot k))
def State.modCore (s : State) (c : Nat) (f : Core → Core) : State := s.setCore c (f (s.core c))

/-- A number below `n`, from any number: the index of a die, cluster or stack field. -/
def ix (n k : Nat) (h : 0 < n := by decide) : Fin n := ⟨k % n, Nat.mod_lt _ h⟩

def State.cluster (s : State) (k : Nat) : Cluster := s.clusters[ix 16 k]
def State.die (s : State) (k : Nat) : Die := s.dies[ix 4 k]
def State.stack (s : State) (k : Nat) : Stack := s.hbm[ix 8 k]
def State.modCluster (s : State) (k : Nat) (f : Cluster → Cluster) : State :=
  { s with clusters := s.clusters.set (ix 16 k) (f (s.cluster k)) }
def State.modDie (s : State) (k : Nat) (f : Die → Die) : State :=
  { s with dies := s.dies.set (ix 4 k) (f (s.die k)) }
def State.modStack (s : State) (k : Nat) (f : Stack → Stack) : State :=
  { s with hbm := s.hbm.set (ix 8 k) (f (s.stack k)) }
def State.modNet (s : State) (f : Net → Net) : State := { s with net := f s.net }
def State.modModule (s : State) (f : Module → Module) : State := { s with module := f s.module }
def State.modSDie (s : State) (f : SDie → SDie) : State := { s with sdie := f s.sdie }

/-- Die, cluster (0 to 15 in the module) and quad of a core (R8). -/
def dieOf (c : Nat) : Nat := c / 1024 % 4
def clusterOf (c : Nat) : Nat := c / 256 % 16
def quadOf (c : Nat) : Nat := c / 4

/-- Scope codes (R17). -/
abbrev scLane : Nat := 0
abbrev scCore : Nat := 1
abbrev scQuad : Nat := 2
abbrev scClus : Nat := 3
abbrev scDie : Nat := 4
abbrev scMod : Nat := 5
abbrev scSys : Nat := 6

/-- Whether cores `a` and `b` lie in one set of a scope (R9). -/
def sameScope (scope a b : Nat) : Bool :=
  if scope ≤ scCore then a = b
  else if scope = scQuad then quadOf a = quadOf b
  else if scope = scClus then clusterOf a = clusterOf b
  else if scope = scDie then dieOf a = dieOf b
  else true

/-- The number of the scope set that holds a core: quad, cluster, die or 0. -/
def scopeSet (scope c : Nat) : Nat :=
  if scope ≤ scCore then c
  else if scope = scQuad then quadOf c
  else if scope = scClus then clusterOf c
  else if scope = scDie then dieOf c
  else 0

/-- The module's node id as leaves hold it (R135): NODEX above NODEY. -/
def State.node (s : State) : Nat := s.module.nodeX.toNat * 256 + s.module.nodeY.toNat

/-- The memory key of a physical address of the own module. -/
def State.own (s : State) (pa : Nat) : Nat := s.node * 2 ^ 48 + pa

/-- The physical address in a memory key. -/
def paOf (key : Nat) : Nat := key % 2 ^ 48

/-- The node in a memory key. -/
def nodeOf (key : Nat) : Nat := key / 2 ^ 48

/-- The physical address of an offset in a core's window (R8). -/
def windowPa (c off : Nat) : Nat := 0xF000000000 + c * 0x100000 + off

/-- Whether a physical address lies in a core window, and of which core (R136). -/
def windowCore (pa : Nat) : Option Nat :=
  if 0xF000000000 ≤ pa ∧ pa < 0xF100000000 then some ((pa - 0xF000000000) / 0x100000) else none

/-- The offset of a physical address in its core window. -/
def windowOff (pa : Nat) : Nat := pa % 0x100000

/-- The stack of an HBM address (R354). -/
def stackOf (pa : Nat) : Nat := pa / 2 ^ 21 % 8

/-- Wall time in microseconds of `n`. -/
def us (n : Nat) : Nat := n * 1000

/-- Whether a feature is present (R102). -/
def State.hasFeat (s : State) (n : Nat) : Bool := bit s.module.feat[ix 8 (n / 64)] (n % 64)

/-- The colour table entry of a colour (R220). -/
def State.colour (s : State) (c : BitVec 6) : Colour := s.module.colours[c.toNat]'c.isLt

def State.modColour (s : State) (c : BitVec 6) (f : Colour → Colour) : State :=
  s.modModule fun m => { m with colours := m.colours.set c.toNat (f (s.colour c)) c.isLt }

/-- The slot that a running core executes (R182): its number in the slot map. -/
def State.cur (s : State) : Option Nat :=
  match s.mover with
  | .core c => (s.core c).running.map fun n => slotKey c n
  | _ => none

/-- A fresh number for a command, post or supervisor operation. -/
def State.bump (s : State) : State := { s with nextId := s.nextId + 1 }

end Sys2Proof.Machine
end

