-- ==== Sys2Proof/Machine/Layout.lean ====
section
/-! DEFINITION. Where the words of a stack lie (R354, R369, R370), which of them carry poison (R142) and which
cannot be read (R358). -/

namespace Sys2Proof.Machine

/-- The end of the HBM data part (R354). -/
abbrev hbmEnd : Nat := 0x7000000000

/-- The end of the stacks: their parity words follow the data (R354). -/
abbrev hbmTop : Nat := 0x8000000000

/-- Whether a granule of a stack is compute-capable (R354). -/
def State.ccGranule (s : State) (pa : Nat) : Bool :=
  decide (7168 - (s.stack (stackOf pa)).ccn.toNat ≤ pa / 2 ^ 26) && decide (pa < hbmEnd)

/-! ### Layout (R354, R369, R370) -/

def stripeSet (pa : Nat) : Nat := pa / 2 ^ 24 % 4
def blockOf (pa : Nat) : Nat := pa / 2 ^ 26 * 512 + pa / 2 ^ 12 % 512

/-- The parity channel of an address. -/
def parityChan (pa : Nat) : Nat := 8 * stripeSet pa + blockOf pa % 8

/-- The data channel of an address: one of the seven others of its stripe set. -/
def dataChan (pa : Nat) : Nat :=
  let j := Config.dataLane (pa / 8) % 7
  8 * stripeSet pa + (if j < blockOf pa % 8 then j else j + 1)

/-- The channel of a word of a stack: of a parity word, that of its stripe's block. -/
def chanOf (w : Nat) : Nat := if 8 * w < hbmEnd then dataChan (8 * w) else parityChan (8 * Config.parityData w 0)

/-- The bank set of a compute-capable granule in its stack (R370). -/
def bankSet (pa : Nat) : Nat := stripeSet pa * 8 + pa / 2 ^ 26 % 8

/-- The number of a word's bank in its stack: set·32 + bank for a compute-capable granule. -/
def State.bankOf (s : State) (pa : Nat) : Nat :=
  if s.ccGranule pa then bankSet pa * 32 + pa / 2 ^ 16 % 32 else Config.dramBank (pa / 8)

/-- Whether a key lies in the HBM data part of the own module. -/
def State.inStack (s : State) (key : Nat) : Bool := decide (nodeOf key = s.node) && decide (paOf key < hbmEnd)

/-! ### Words and poison (R142) -/

/-- Words that hold any of `n` bytes from `key` on. -/
def wordsOf (key n : Nat) : List Nat :=
  if n = 0 then [] else (List.range ((key + n - 1) / 8 - key / 8 + 1)).map (key / 8 + ·)

/-- Words that lie wholly in `n` bytes from `key` on. -/
def wholeWords (key n : Nat) : List Nat :=
  (wordsOf key n).filter fun w => decide (key ≤ 8 * w) && decide (8 * w + 8 ≤ key + n)

/-- Whether any 8-byte word that holds one of the bytes `key` to `key + n - 1` is poisoned (R142). -/
def State.poisoned (s : State) (key n : Nat) : Bool :=
  n ≠ 0 && s.poison.any fun w => decide (key / 8 ≤ w) && decide (w ≤ (key + n - 1) / 8)

/-- Inserts a number into a strictly rising list. -/
def insertRising (w : Nat) : List Nat → List Nat
  | [] => [w]
  | x :: xs => if w = x then x :: xs else if w < x then w :: x :: xs else x :: insertRising w xs

/-- Marks the words with these numbers (address divided by 8). -/
def State.mark (s : State) (ws : List Nat) : State :=
  { s with poison := ws.foldl (fun p w => insertRising w p) s.poison }

/-! ### Words that ECC finds bad (R358) -/

/-- The ECC condition of a word of the stack. -/
def Stack.eccAt (t : Stack) (w : Nat) : Option Ecc := (t.ecc.find? fun e => e.1 = w).map (·.2)

/-- Whether a channel is read by step 3 alone: failed or being rebuilt. -/
def Stack.chanOut (t : Stack) (ch : Nat) : Bool :=
  decide (t.failed ||| t.rebuild ≠ 0) && bit (t.failed ||| t.rebuild) ch

/-- Whether a word cannot be read by steps 1 and 2. -/
def State.wordOut (s : State) (w : Nat) : Bool :=
  let t := s.stack (stackOf (8 * w))
  t.eccAt w = some .lost || t.chanOut (chanOf w) || t.bankOut.contains (s.bankOf (8 * w))

/-- The channel of the stripe's other data word number `j`: the data channels of the stripe set but the word's
own, in order (R354). -/
def mateChan (w j : Nat) : Nat :=
  let pa := 8 * w
  let lane := Config.dataLane w % 7
  let l := if j < lane then j else j + 1
  8 * stripeSet pa + (if l < blockOf pa % 8 then l else l + 1)

/-- Whether the stripe's other data word number `j` can be read by steps 1 and 2. Its bank lies in another channel
than the word's own. -/
def State.mateOut (s : State) (w j : Nat) : Bool :=
  let t := s.stack (stackOf (8 * w))
  let bank := s.bankOf (8 * Config.stripeMate w j)
  t.eccAt (Config.stripeMate w j) = some .lost || t.chanOut (mateChan w j) ||
    (decide (bank ≠ s.bankOf (8 * w)) && t.bankOut.contains bank)

/-- Whether the parity word of a data word's stripe cannot be read. Its bank lies in another channel than the word's
own. -/
def State.parityOut (s : State) (w : Nat) : Bool :=
  let t := s.stack (stackOf (8 * w))
  let p := Config.parityOf w
  let bank := s.bankOf (8 * p)
  t.eccAt p = some .lost || t.chanOut (parityChan (8 * w)) || s.poison.contains (s.own (8 * p) / 8) ||
    (decide (bank ≠ s.bankOf (8 * w)) && t.bankOut.contains bank)

/-- Whether step 3 succeeds: the other words of the stripe and its parity can be read (R358); a parity word is made
again from the data words of its stripe. -/
def State.rebuildable (s : State) (w : Nat) : Bool :=
  if 8 * w < hbmEnd then !s.parityOut w && (List.range 6).all fun j => !s.mateOut w j
  else (List.range 7).all fun j => !s.wordOut (Config.parityData w j)

/-- A saturating counter of `n` bits. -/
def sat (n : Nat) (x : BitVec n) : BitVec n := if x = BitVec.allOnes n then x else x + 1

/-- Whether a word of the own module's stacks cannot be read by any step of R358. -/
def State.lostWord (s : State) (w : Nat) : Bool := s.wordOut w && !s.rebuildable w

/-- An uncorrectable word is counted and marked (R358, R359). -/
def State.markLost (s : State) (w : Nat) : State :=
  (s.modStack (stackOf (8 * w)) fun t => { t with ecc := AMap.erase t.ecc w, uncorr := sat 16 t.uncorr }).mark
    [s.own (8 * w) / 8]

/-- Whether the 8-byte word at a key is poisoned, or can be read by no step of R358. -/
def State.unreadable (s : State) (key : Nat) : Bool :=
  s.poisoned key 8 || (s.inStack key && s.lostWord (paOf key / 8))

end Sys2Proof.Machine
end

