-- ==== Sys2Proof/Machine/Memory.lean ====
section
/-! DEFINITION. Memory: bytes, poison marks (R142), waking of WADDR (R156), translation (R133 to R139),
target types (R136) and range guards (R158). -/

namespace Sys2Proof.Machine

/-- A memory: the bytes that differ from what an unlisted address reads as, addresses rising. -/
abbrev Memory := List Host.Cell

/-- What an unlisted address reads as (log 2). -/
abbrev blank : Byte := 0

/-- The canonical form: addresses strictly rising, no entry equal to `blank`. -/
def Memory.wf : Memory → Bool
  | [] => true
  | [(_, v)] => v != blank
  | (a, v) :: (b, w) :: m => decide (a < b) && v != blank && Memory.wf ((b, w) :: m)

/-- Reads one byte. -/
def Memory.read (m : Memory) (a : Nat) : Byte := AMap.get blank m a

/-- Writes one byte, keeping the canonical form. -/
def Memory.write (m : Memory) (a : Nat) (v : Byte) : Memory :=
  if v = blank then AMap.erase m a else AMap.set m a v

/-- Reads `n` bytes, lowest address first. -/
def Memory.bytes (m : Memory) (a : Nat) : Nat → List Byte
  | 0 => []
  | n + 1 => m.read a :: Memory.bytes m (a + 1) n

/-- The little-endian number that a byte list holds (R2). -/
def leNat : List Byte → Nat
  | [] => 0
  | b :: bs => b.toNat + 256 * leNat bs

/-- The `n` little-endian bytes of a number. -/
def leBytes (v : Nat) : Nat → List Byte
  | 0 => []
  | n + 1 => BitVec.ofNat 8 v :: leBytes (v / 256) n

/-- Writes a byte list from address `a` on. -/
def Memory.put (m : Memory) (a : Nat) : List Byte → Memory
  | [] => m
  | b :: bs => Memory.put (m.write a b) (a + 1) bs

/-- Reads `n` bytes as a number. -/
def State.loadLE (s : State) (key n : Nat) : Nat := leNat (Memory.bytes s.mem key n)

/-- Clears the marks of these words. -/
def State.unmark (s : State) (ws : List Nat) : State :=
  { s with poison := s.poison.filter fun w => !ws.contains w }

/-- The condition of WADDR (R156). -/
def waddrCond (f : BitVec 2) (w v : Word) : Bool :=
  match f.toNat with
  | 0 => w = v
  | 1 => w ≠ v
  | 2 => !(w - v).msb
  | _ => w &&& v ≠ 0

/-- Wakes a slot that waits on the word at `key` if the word now satisfies its condition (R156). -/
def wakeSlot (key : Nat) (w : Word) (sl : Slot) : Slot :=
  match sl.phase with
  | .blocked (.word k _ f v d) =>
    if k = key ∧ waddrCond f w v then { sl with phase := .blocked (.woken w d) } else sl
  | _ => sl

/-- After a write to the word at address 8·`word`: the owning bank tests the waiters (R156). -/
def State.wake (s : State) (word : Nat) : State :=
  match windowCore (paOf (8 * word)) with
  | some c =>
    if windowOff (paOf (8 * word)) < 0x40000 then
      let w := BitVec.ofNat 64 (s.loadLE (8 * word) 8)
      (List.range 8).foldl (fun s n => s.modSlot (slotKey c n) (wakeSlot (8 * word) w)) s
    else s
  | none => s

/-- A store of bytes: whole words lose their poison, partial ones keep it (R142); waiters wake. -/
def State.store (s : State) (key : Nat) (bs : List Byte) : State :=
  let s := { s with mem := Memory.put s.mem key bs }
  let s := if s.poison = [] then s else s.unmark (wholeWords key bs.length)
  (wordsOf key bs.length).foldl State.wake s

/-- A store of the low `n` bytes of a number. -/
def State.storeLE (s : State) (key n v : Nat) : State := s.store key (leBytes v n)

/-- A byte that an engine writes: address, value and whether it carries poison. -/
abbrev Cell := Nat × Byte × Bool

/-- One write of an engine: bytes of one word at rising addresses (R156, R283, R308). A marked byte marks the
word, eight clean bytes clear it, and the bank tests its waiters. -/
def State.engineWord (s : State) (run : List Cell) : State :=
  match run with
  | [] => s
  | c :: _ =>
    let w := c.1 / 8
    let s := { s with mem := run.foldl (fun m (c : Cell) => Memory.write m c.1 c.2.1) s.mem }
    let s :=
      if run.any (·.2.2) then s.mark [w]
      else if run.length = 8 ∧ s.poison ≠ [] then s.unmark [w]
      else s
    s.wake w

/-- Whether two neighbouring bytes of an engine's write belong to one write of a word. -/
def oneWord (a b : Cell) : Bool := decide (a.1 / 8 = b.1 / 8) && decide (a.1 < b.1)

/-- An engine's write of many bytes, in their order: a word that it visits twice is written twice (R156). -/
def State.engineWrite (s : State) (cells : List Cell) : State := (cells.splitBy oneWord).foldl State.engineWord s

/-! ### Translation -/

/-- What an access does (R138). -/
inductive AccKind where
  | load
  | store
  | atomic
  | fetch
  deriving DecidableEq, Repr

/-! Fields of a translated address (R135). -/

def Xlate.tt (x : Xlate) : Nat := Sys2Proof.bits x.leaf 7 5
def Xlate.prop (x : Xlate) : Nat := Sys2Proof.bits x.leaf 9 8
def Xlate.cc (x : Xlate) : Bool := bit x.leaf 10
def Xlate.tol (x : Xlate) : Bool := bit x.leaf 12
def Xlate.nan (x : Xlate) : Bool := bit x.leaf 13
def Xlate.pa (x : Xlate) : Nat := paOf x.key

/-- Where the frame of each target type may lie, and the page sizes it may have (R136). -/
def regionOk (tt frame size : Nat) : Bool :=
  let inWindow := decide (0xF000000000 ≤ frame) && decide (frame < 0xF100000000)
  let off := windowOff frame
  let inOff (lo hi : Nat) := decide (size = 16) && inWindow && decide (lo ≤ off) && decide (off < hi)
  match tt with
  | 0 => decide (frame + 2 ^ size ≤ hbmEnd)
  | 1 => inOff 0 0x40000
  | 2 => inOff 0x40000 0xC0000
  | 3 => inOff 0xC0000 0xD0000
  | 4 => inOff 0xD0000 0xF0000
  | 5 => inOff 0xF0000 0x100000 ||
    (decide (size = 16) && decide (0xFF00000000 ≤ frame) && decide (frame < 0x10000000000))
  | 6 => decide (size = 21) && decide (0xF800000000 ≤ frame) && decide (frame < 0xF900000000)
  | _ => false

/-- Whether a leaf entry is well formed for a page of 2^size bytes (R135 to R137). Which frames of another
module are compute-capable is that module's affair (log 72). -/
def State.leafOk (s : State) (e : Word) (size : Nat) : Bool :=
  let frame := bits e 47 16 * 0x10000
  let tt := bits e 7 5
  let prop := bits e 9 8
  let own := decide (bits e 63 48 = s.node)
  decide (frame % 2 ^ size = 0) && decide (bits e 15 14 = 0) && regionOk tt frame size &&
  (!bit e 10 || (decide (tt = 0) && decide (size = 21) && bit e 11 &&
    (if own then s.ccGranule frame else Config.foreignCc (bits e 63 16)))) &&
  (decide (tt = 0) || (!bit e 12 && decide (prop = 0) && own)) &&
  decide (prop ≠ 3) && (!bit e 3 || decide (tt ≤ 1)) && (!bit e 2 || bit e 1)

/-- Whether a frame is retired and its deadline has passed (R366). -/
def State.retiredAt (s : State) (key : Nat) : Bool :=
  decide (nodeOf key = s.node) && s.module.retired.any fun r =>
    decide (r.frame = paOf key / 0x10000) && decide (r.deadline ≤ s.cycle)

/-- One level of the walk (R134): the table at `table`, indexed by the address. The levels are
given by the width of the address below their index: 39, 30, 21 and 16. An entry in a retired frame gives 0x382 (R366),
one that is poisoned or cannot be read 0x118 (R142, R358, log 73). -/
def State.walkFrom (s : State) (va : Nat) (entry : Word) : List (Nat × Nat) → Except (BitVec 10) (Word × Nat)
  | [] => .error 0x103#10
  | (lo, count) :: levels =>
    let table := bits entry 47 8 * 256
    if bits entry 63 48 ≠ 0 ∨ bits entry 7 1 ≠ 0 ∨ table % (8 * count) ≠ 0 ∨
        hbmEnd < table + 8 * count then .error 0x103#10
    else
      let key := s.own (table + 8 * (va / 2 ^ lo % count))
      let e := BitVec.ofNat 64 (s.loadLE key 8)
      if s.retiredAt key then .error 0x382#10
      else if s.unreadable key then .error 0x118#10
      else if !bit e 0 then .error 0x101#10
      else if bits e 3 1 ≠ 0 then
        if lo = 39 ∨ !s.leafOk e lo then .error 0x103#10 else .ok (e, lo)
      else State.walkFrom s va e levels

/-- The walk of an address in an address space, from the table that ASTAB names (R134, R233). -/
def State.walk (s : State) (c : Nat) (asid : BitVec 16) (va : Nat) : Except (BitVec 10) (Word × Nat) :=
  let base := bits (s.core c).astab 47 16 * 0x10000
  if hbmEnd < base + 0x80000 then .error 0x103#10
  else
    let key := s.own (base + 8 * asid.toNat)
    let root := BitVec.ofNat 64 (s.loadLE key 8)
    if s.retiredAt key then .error 0x382#10
    else if s.unreadable key then .error 0x118#10
    else if !bit root 0 then .error 0x101#10
    else s.walkFrom va (root &&& ~~~2#64) [(39, 8192), (30, 512), (21, 512), (16, 32)]

/-- Whether an ASID is a tenant ASID (R233). -/
def State.tenant (s : State) (c : Nat) (asid : BitVec 16) : Bool :=
  bit (BitVec.ofNat 64 (s.loadLE (s.own (bits (s.core c).astab 47 16 * 0x10000 + 8 * asid.toNat)) 8)) 1

/-- What R138 asks of a leaf. -/
def permits (kind : AccKind) (cls : BitVec 2) (leaf : Word) : Bool :=
  (match kind with
    | .load => bit leaf 1
    | .store => bit leaf 2
    | .atomic => bit leaf 1 && bit leaf 2
    | .fetch => bit leaf 3) && (decide (2 ≤ cls.toNat) || bit leaf 4)

/-- The leaf of an address: from the TLB where the entry is still there (log 8), else by a walk. -/
def State.leafOf (s : State) (c : Nat) (asid : BitVec 16) (va : Nat) :
    Except (BitVec 10) (Word × Nat × Option TlbEntry) :=
  match (s.core c).tlb.find? fun e => decide (e.asid = asid) && decide (va / 2 ^ e.bits = e.page) with
  | some e =>
    if Config.tlbKeeps s.tick then .ok (e.leaf, e.bits, none)
    else (s.walk c asid va).map fun r => (r.1, r.2, some ⟨asid, va / 2 ^ r.2, r.2, r.1⟩)
  | none => (s.walk c asid va).map fun r => (r.1, r.2, some ⟨asid, va / 2 ^ r.2, r.2, r.1⟩)

/-- Translation and permission check (R133 to R138). -/
def State.translate (s : State) (c : Nat) (asid : BitVec 16) (cls : BitVec 2) (kind : AccKind)
    (va : Word) : Except (BitVec 10) Xlate :=
  if bits va 63 52 ≠ 0 then .error 0x105#10
  else
    match s.leafOf c asid va.toNat with
    | .error e => .error e
    | .ok (leaf, size, fill) =>
      if permits kind cls leaf then
        .ok ⟨leaf, size, bits leaf 63 48 * 2 ^ 48 + bits leaf 47 16 * 0x10000 + va.toNat % 2 ^ size, fill⟩
      else .error 0x102#10

/-- The words that a walk reads, the root of the ASID first (R134). -/
def State.walkWords (s : State) (va : Nat) (entry : Word) : List (Nat × Nat) → List Nat
  | [] => []
  | (lo, count) :: levels =>
    let key := s.own (bits entry 47 8 * 256 + 8 * (va / 2 ^ lo % count))
    let e := BitVec.ofNat 64 (s.loadLE key 8)
    if !bit e 0 ∨ bits e 3 1 ≠ 0 then [key] else key :: State.walkWords s va e levels

/-- The keys of the words that the walk of an address reads. -/
def State.tableWords (s : State) (c : Nat) (asid : BitVec 16) (va : Nat) : List Nat :=
  let key := s.own (bits (s.core c).astab 47 16 * 0x10000 + 8 * asid.toNat)
  key :: s.walkWords va (BitVec.ofNat 64 (s.loadLE key 8) &&& ~~~2#64) [(39, 8192), (30, 512), (21, 512), (16, 32)]

/-- The word at a key is marked where it is uncorrectable and carries no mark yet (R359). -/
def State.markWhere (s : State) (key : Nat) : State :=
  if s.inStack key ∧ s.lostWord (paOf key / 8) ∧ !s.poisoned key 8 then s.markLost (paOf key / 8) else s

/-- After a cause 0x118 of an access to a word: the uncorrectable words that it met are marked, those of its walk
or its own (R359). -/
def State.sawPoison (s : State) (c : Nat) (asid : BitVec 16) (cause : BitVec 10) (va : Word) : State :=
  if cause ≠ 0x118#10 then s
  else match s.leafOf c asid va.toNat with
    | .error _ => (s.tableWords c asid va.toNat).foldl State.markWhere s
    | .ok (leaf, size, _) =>
      s.markWhere (bits leaf 63 48 * 2 ^ 48 + bits leaf 47 16 * 0x10000 + va.toNat % 2 ^ size)

/-- Enters the translation that a walk found into the core's TLB. -/
def State.enterTlb (s : State) (c : Nat) (x : Xlate) : State :=
  match x.fill with
  | none => s
  | some e =>
    s.modCore c fun co =>
      { co with tlb := e :: co.tlb.filter fun o => !(decide (o.asid = e.asid) && decide (o.page = e.page)
          && decide (o.bits = e.bits)) }

/-- The majors that R136 tells apart. -/
inductive Reach where
  | load
  | store
  | handle
  | atomic
  | wait
  deriving DecidableEq, Repr

/-- Whether a major may reach the page's target with `n` bytes (R136, R145, R146, R156, R165).
Registers that take 8-byte accesses only are R213's and R363's. -/
def reaches (r : Reach) (c : Nat) (x : Xlate) (n : Nat) : Bool :=
  let own := (windowCore x.pa).getD 0
  let ok :=
    match x.tt with
    | 0 => r ≠ .wait
    | 1 => if r = .wait then decide (own = c) else decide (clusterOf own = clusterOf c)
    | 2 => (r = .load || r = .store) && decide (own = c)
    | 3 => r = .load && decide (own = c) && decide (windowOff x.pa + n ≤ 0xCC000)
    | 4 => r = .store && decide (n = 8)
    | 5 => (r = .load || r = .store) && (decide (n = 8) || (decide (n = 4) &&
        !(decide (0xFF00000000 ≤ x.pa) && decide (x.pa < 0xFF00000800)) &&
        !(decide (0xFF00004000 ≤ x.pa) && decide (x.pa < 0xFF00004900))))
    | _ => false
  ok && !(decide (x.prop = 2) && (r = .atomic || r = .wait)) && !(decide (x.prop ≠ 0) && r = .wait)

/-! ### Range guards -/

/-- Whether two ranges share a byte. -/
def overlap (a n b m : Nat) : Bool := n ≠ 0 && m ≠ 0 && decide (a < b + m) && decide (b < a + n)

/-- Whether an access conflicts with a guard (R158): any overlap with a write-locked range, and an
overlap of a writing access with a read-locked one. -/
def Guard.hits (g : Guard) (space : GuardSpace) (lo n : Nat) (writes : Bool) : Bool :=
  decide (g.space = space) && overlap g.lo g.len lo n && (g.write || writes)

/-- Whether an access to scratchpad bytes conflicts with a guard of their window, whichever core's table
holds it (R158, log 38). -/
def State.bankGuarded (s : State) (key n : Nat) (writes : Bool) : Bool :=
  s.cores.any fun e => e.2.guards.any fun g => g.hits .phys key n writes

/-- The guard check at issue of an ordinary access (R158): the core's own bank for its own window, its table
for HBM, and the die range table (0x10C). Another core's bank checks when the access arrives. -/
def State.guardCause (s : State) (c : Nat) (asid : BitVec 16) (va : Word) (x : Xlate) (n : Nat)
    (writes : Bool) : Option (BitVec 10) :=
  let hit :=
    match windowCore x.pa with
    | some o => decide (o = c) && s.bankGuarded x.key n writes
    | none => (s.core c).guards.any fun g => g.hits (.virt asid) va.toNat n writes
  if hit then some 0x108#10
  else if (s.die (dieOf c)).ranges.any fun r =>
      decide (r.asid = asid) && overlap r.lo r.len va.toNat n && (r.write || writes) then some 0x10C#10
  else none

/-- Whether a frame is retired for an access of an engine at some instant of this step: a deadline that falls within
the step may come before the access or after it (R366, R368). -/
def State.retiredIn (s : State) (key : Nat) : Bool :=
  decide (nodeOf key = s.node) && s.module.retired.any fun r =>
    decide (r.frame = paOf key / 0x10000) && (decide (r.deadline ≤ s.cycle) ||
      (decide (r.deadline ≤ s.cycle + Config.elapsedCycles s.tick) && Config.late s.tick key))

/-- Whether the node of an address cannot be reached (R399). -/
def State.unreachable (s : State) (key : Nat) : Bool :=
  decide (nodeOf key ≠ s.node) && s.module.lost.contains (BitVec.ofNat 16 (nodeOf key))

/-- All checks of one access before it is performed, in the order that R143 lists: R133, R134 to R138,
R140, R158; then R366 for a store (a load is judged when it arrives) and R399. -/
def State.check (s : State) (c : Nat) (asid : BitVec 16) (cls : BitVec 2) (kind : AccKind) (r : Reach)
    (va : Word) (n align : Nat) : Except (BitVec 10) Xlate :=
  if bits va 63 52 ≠ 0 then .error 0x105#10
  else
    match s.translate c asid cls kind va with
    | .error e => .error e
    | .ok x =>
      if !reaches r c x n then .error 0x106#10
      else if va.toNat % align ≠ 0 ∨ 2 ^ x.bits < va.toNat % 2 ^ x.bits + n then .error 0x104#10
      else
        match s.guardCause c asid va x n (decide (kind ≠ .load)) with
        | some e => .error e
        | none =>
          if x.tt = 0 ∧ kind = .store ∧ s.retiredAt x.key then .error 0x382#10
          else if x.tt = 0 ∧ s.unreachable x.key then .error 0x3C1#10
          else .ok x

/-- The first 8-byte words of a read replaced by the TOLNAN fill where they are poisoned on a tolerant
page (R142, R359). -/
def State.filled (s : State) (key n : Nat) (nan : Bool) : List Byte :=
  (List.range n).map fun i =>
    if s.poison.contains ((key + i) / 8) then (if nan then 0xFF#8 else 0x00#8) else Memory.read s.mem (key + i)

/-- SUBCNT of a stack of the own module after `n` more substituted words (R359, R363). -/
def State.substitute (s : State) (key n : Nat) : State :=
  if nodeOf key ≠ s.node then s
  else s.modStack (stackOf (paOf key)) fun t =>
    { t with subcnt := BitVec.ofNat 32 (Nat.min (t.subcnt.toNat + n) 0xFFFFFFFF) }

/-- A read of `n` bytes that meets the poison rules (R142): the bytes, or 0x118. -/
def State.readMem (s : State) (key n : Nat) (tol nan : Bool) : Except (BitVec 10) (State × List Byte) :=
  if !s.poisoned key n then .ok (s, Memory.bytes s.mem key n)
  else if tol then
    let words := (wordsOf key n).filter fun w => s.poison.contains w
    .ok (s.substitute key words.length, s.filled key n nan)
  else .error 0x118#10

end Sys2Proof.Machine
end

