-- ==== Sys2Proof/Machine/Holds.lean ====
section
/-! DEFINITION. Which accesses wait: those to a region that a repair or an alert holds (R362, R367), and those to a
node whose path is down (R399). -/

namespace Sys2Proof.Machine

/-! ### Holds (R362, R367) -/

/-- Whether a repair or an alert holds a word. One that begins in this very step holds none of the step's own
accesses: a step is whole. -/
def State.heldWord (s : State) (w : Nat) : Bool :=
  (s.stack (stackOf (8 * w))).holds.any fun h => decide (h.born ≠ s.tick) &&
    match h.kind with
    | .row => decide (h.region = Config.dramRow w)
    | .lane => decide (h.region = chanOf w)
    | .bank => decide (h.region = s.bankOf (8 * w))
    | .alert => decide (h.region = s.bankOf (8 * w))

/-- Whether any region of a stack is held. -/
def State.anyHold (s : State) : Bool := s.hbm.toList.any fun t => decide (t.holds ≠ [])

/-- Whether any word of an access is held. -/
def State.heldRange (s : State) (key n : Nat) : Bool :=
  s.inStack key && s.anyHold && (wordsOf (paOf key) n).any s.heldWord

/-- Whether the path to the node of an address is down and the node not yet lost (R399). -/
def State.pathDown (s : State) (key : Nat) : Bool :=
  (s.module.down.any fun d => d.1.toNat = nodeOf key) && !s.unreachable key

/-- Bytes that an operation touches. -/
def MemOp.size : MemOp → Nat
  | .read n => n
  | .write n _ => n
  | .amo _ _ => 8
  | .a96 _ => 12
  | .cas n _ _ => n
  | .claim _ => 24
  | .rows => 0
  | .unit => 0

/-- Whether a request touches the 8-byte word at this number (address divided by 8). -/
def Request.words (r : Request) (w : Nat) : Bool := (wordsOf r.key r.op.size).contains w

/-- The first word of an access that a request waits for at its controller: what arrives later is performed later
(R356, R362). -/
def State.arrivedAt (s : State) (key n : Nat) : Option Nat :=
  let waiting := s.net.reqs.filter Request.arrived
  if waiting = [] then none
  else ((wordsOf key n).find? fun w => waiting.any fun r => r.words w).map (8 * ·)

/-- The first word of an access that waits now: one that is held or for which an earlier access waits, or any where
the path to its node is down (R356, R362, R367, R399). -/
def State.waitsAt (s : State) (key n : Nat) : Option Nat :=
  if s.pathDown key then some key
  else if s.heldRange key n then ((wordsOf (paOf key) n).find? s.heldWord).map fun w => s.own (8 * w)
  else s.arrivedAt key n

/-- Whether anything can make an access wait: a hold, an access that waits, or a path that is down. -/
def State.mayWait (s : State) : Bool :=
  s.anyHold || decide (s.module.down ≠ []) || s.net.reqs.any Request.arrived

/-- Whether an operation counts as a write for guards (R158). -/
def MemOp.writes : MemOp → Bool
  | .read _ => false
  | .rows => false
  | .unit => false
  | _ => true

/-- An access of the step now taken: one that waits makes the whole step wait (R362, R399). -/
def State.touch (s : State) (key n : Nat) : State :=
  match s.waitsAt key n with
  | some w => { s with stuck := some w }
  | none => s

/-- The number under which activations of a row of a bank are counted. -/
def actKey (bank row : Nat) : Nat := row * 2 ^ 16 + bank % 2 ^ 16

/-- The row of a word, with its bank. -/
def State.dramRowKey (s : State) (w : Nat) : Nat := actKey (s.bankOf (8 * w)) (Config.dramRow w)

/-- Counts an activation of the row of a word of the own stacks (R367); a row that has reached the threshold raises its
alert at the end of the step. -/
def State.activate (s : State) (key : Nat) : State :=
  if nodeOf key ≠ s.node ∨ hbmTop ≤ paOf key then s
  else
    let row := s.dramRowKey (paOf key / 8)
    s.modStack (stackOf (paOf key)) fun t => { t with acts := t.acts.set row (AMap.get 0 t.acts row + 1) }

/-- The first words of the rows that an access to `n` bytes opens, in order (R367). -/
def State.rowStarts (s : State) (key n : Nat) : List Nat :=
  ((wordsOf (paOf key) n).foldl (fun (r : List Nat × Option Nat) w =>
    if r.2 = some (s.dramRowKey w) then r else (8 * w :: r.1, some (s.dramRowKey w))) ([], none)).1.reverse

/-- The activation counts of a stack after the rows of some words have been opened. -/
def State.actsAfter (s : State) (st : Nat) (acts : AMap Nat) (pas : List Nat) : AMap Nat :=
  pas.foldl (fun a pa =>
    if stackOf pa = st ∧ pa < hbmTop then a.set (s.dramRowKey (pa / 8)) (AMap.get 0 a (s.dramRowKey (pa / 8)) + 1) else a) acts

/-- An access to `n` bytes of the own stacks opens their rows (R367). -/
def State.openRows (s : State) (key n : Nat) : State :=
  if !s.inStack key then s
  else { s with hbm := s.hbm.mapFinIdx fun st t _ => { t with acts := s.actsAfter st t.acts (s.rowStarts key n) } }

/-- An access of the step now taken to `n` bytes: it waits where they are held, and opens their rows (R362, R367). -/
def State.open (s : State) (key n : Nat) : State := (s.touch key n).openRows key n

/-- A store that reaches HBM clears the ECC condition of the words it writes whole (R358). -/
def State.eccClear (s : State) (key n : Nat) : State :=
  if nodeOf key = s.node ∧ paOf key < hbmTop ∧ (s.stack (stackOf (paOf key))).ecc ≠ [] then
    (wholeWords (paOf key) n).foldl (fun s w => s.modStack (stackOf (8 * w)) fun t =>
      { t with ecc := AMap.erase t.ecc w }) s
  else s

/-- The outcome of an event that begins in `s` and comes to `t`: nothing has happened yet where one of its
accesses waits. -/
def State.event (s t : State) : Host.Outcome State Fault Refusal := .next (if t.stuck.isSome then s else t)

/-- A step of slot `k` that begins in `s` and comes to `t`: where one of its accesses waits, the activation waits
for it and makes the instruction again (R362, R399). -/
def State.orWait (s : State) (k : Nat) (t : State) : State :=
  match t.stuck with
  | none => t
  | some key => (s.modSlot k fun sl => { sl with phase := .blocked (.held key) }).modCore (keyCore k) fun c =>
      { c with running := if c.running = some (keySlot k) then none else c.running }

end Sys2Proof.Machine
end

