-- ==== Sys2Proof/Machine/Mail.lean ====
section
/-! DEFINITION. Messages and their headers (R170, R171), the context map (R227), the mailbox pool
(R175), the judging of an arriving message (R174), reports (R188) and the choice of a candidate
(R182). -/

namespace Sys2Proof.Machine

/-- A word with the fields of a list (value, low bit), each already within its width. -/
def fields (l : List (Nat × Nat)) : Word :=
  BitVec.ofNat 64 (l.foldl (fun a f => a + f.1 * 2 ^ f.2) 0)

/-- hdr0 of a message from the own module (R170). -/
def State.header (s : State) (kind core slot cls colour : Nat) (rsv vc : Bool) (mb type : Nat) : Word :=
  fields [(kind, 52), (s.module.nodeY.toNat, 44), (s.module.nodeX.toNat, 36), (core, 24), (slot, 20),
    (cls, 18), (colour, 12), (rsv.toNat, 11), (vc.toNat, 10), (mb, 8), (type, 0)]

def Msg.type (m : Msg) : Nat := bits m.hdr0 7 0
def Msg.mb (m : Msg) : Fin 4 := ix 4 (bits m.hdr0 9 8)
def Msg.vc (m : Msg) : Bool := bit m.hdr0 10
def Msg.key (m : Msg) : BitVec 32 := m.hdr1.setWidth 32
def Msg.rtag (m : Msg) : BitVec 16 := m.hdr1.extractLsb' 48 16
def Msg.colour (m : Msg) : BitVec 6 := m.hdr0.extractLsb' 12 6
def Msg.kind (m : Msg) : Nat := bits m.hdr0 55 52

/-- Forms a message with the next SEQ of its sender core, target mailbox and channel (R170). -/
def State.formMsg (s : State) (core : Nat) (hdr0 : Word) (rtag : BitVec 16) (key : BitVec 32)
    (pay : Vector Word 6) (dst : Nat) : State × Msg :=
  let q := (dst * 4 + bits hdr0 9 8) * 2 + bits hdr0 10 10
  let seq := AMap.get 0#16 (s.core core).seqs q
  (s.modCore core fun c => { c with seqs := c.seqs.set q (seq + 1) }, ⟨hdr0, rtag ++ seq ++ key, pay⟩)

/-- The sender number of a message that no core sends (R171, log 19): core numbers end at 4095. -/
abbrev sDieNo : Nat := 4096

/-- Puts a message in flight that was sent through a translation, or through none. -/
def State.sendVia (s : State) (via : Option Via) (core : Nat) (hdr0 : Word) (rtag : BitVec 16) (key : BitVec 32)
    (pay : Vector Word 6) (dst : Nat) (ctxid : BitVec 32) (report : Report) (claimed : Bool) : State :=
  let r := s.formMsg core hdr0 rtag key pay dst
  r.1.modNet fun n =>
    { n with flights := n.flights ++ [⟨dst, r.2, core, ctxid, report, claimed, 0, s.ns, none, via⟩] }

/-- Puts a message in flight. -/
def State.send (s : State) (core : Nat) (hdr0 : Word) (rtag : BitVec 16) (key : BitVec 32)
    (pay : Vector Word 6) (dst : Nat) (ctxid : BitVec 32) (report : Report) (claimed : Bool) : State :=
  s.sendVia none core hdr0 rtag key pay dst ctxid report claimed

/-! ### The context map (R227) -/

/-- The entry of a context of a core. -/
def State.ctx (s : State) (c : Nat) (id : BitVec 32) : Option Ctx :=
  (s.core c).ctxs.find? fun e => e.id = id

/-- Whether a slot has become empty: all beads zero and no guard entry in its name (R168). -/
def State.quiet (s : State) (c n : Nat) : Bool :=
  let sl := s.slot (slotKey c n)
  decide (sl.beads = .replicate 4 0) &&
  !s.cores.any fun e => e.2.guards.any fun g => decide (g.core = c) && decide (g.ctxid = sl.ctxid)

/-- A removed slot becomes empty, and its context leaves the map, once it is quiet (R168, R227). -/
def State.settle (s : State) (c n : Nat) : State :=
  let k := slotKey c n
  if (s.slot k).status = .removing ∧ s.quiet c n then
    let id := (s.slot k).ctxid
    let s := s.modCore c fun co => { co with ctxs := co.ctxs.filter fun e => e.id ≠ id }
    s.modSlot k fun sl => { sl with status := .empty }
  else s

/-- Removed contexts that nothing keeps leave the map of a core: their beads are zero and no guard stands in
their name (R168, R227). -/
def State.settleAway (s : State) (c : Nat) : State :=
  let named (id : BitVec 32) : Bool :=
    s.cores.any fun e => e.2.guards.any fun g => decide (g.core = c) && decide (g.ctxid = id)
  s.modCore c fun co => { co with ctxs := co.ctxs.filter fun e => match e.loc with
    | .removed beads => decide (beads ≠ .replicate 4 0) || named e.id
    | _ => true }

/-- FENG after one more credited fault (R211). -/
def fengAfter (feng : Word) (cause : BitVec 10) (origin : BitVec 4) : Word :=
  fields [(Nat.min (bits feng 31 24 + 1) 255, 24), (origin.toNat, 20), (cause.toNat, 0)]

/-- The place of a virtual address that the core itself reads or writes, in a save area or overflow ring
(R225, R226), without permission checks. -/
def State.placeOf (s : State) (c : Nat) (asid : BitVec 16) (va : Word) : Option Nat :=
  match s.leafOf c asid va.toNat with
  | .ok (leaf, size, _) => some (bits leaf 63 48 * 2 ^ 48 + bits leaf 47 16 * 0x10000 + va.toNat % 2 ^ size)
  | .error _ => none

/-- Reads `n` bytes at an offset of a save area. -/
def State.areaLoad (s : State) (c : Nat) (area : Word) (asid : BitVec 16) (off n : Nat) : Nat :=
  match s.placeOf c asid (area + BitVec.ofNat 64 off) with
  | some key => s.loadLE key n
  | none => 0

/-- Writes `n` bytes at an offset of a save area. -/
def State.areaStore (s : State) (c : Nat) (area : Word) (asid : BitVec 16) (off n v : Nat) : State :=
  match s.placeOf c asid (area + BitVec.ofNat 64 off) with
  | some key => ((s.open key n).eccClear key n).storeLE key n v
  | none => s

/-- Writes consecutive words from an offset of a save area. -/
def State.areaWords (s : State) (c : Nat) (area : Word) (asid : BitVec 16) (off : Nat) : List Word → State
  | [] => s
  | w :: ws => State.areaWords (s.areaStore c area asid off 8 w.toNat) c area asid (off + 8) ws

/-- The bits that a header has (R170): <63:56> and <23> are zero. -/
abbrev headMask : Word := 0x00FFFFFFFF7FFFFF#64

/-- The messages that a save area holds, oldest first (R225). -/
def State.areaMsgs (s : State) (c : Nat) (area : Word) (asid : BitVec 16) : List Msg :=
  (List.range (s.areaLoad c area asid 0x034 4)).map fun i =>
    let w (j : Nat) : Word := BitVec.ofNat 64 (s.areaLoad c area asid (0xA00 + 64 * i + 8 * j) 8)
    ⟨w 0 &&& headMask, w 1, #v[w 2, w 3, w 4, w 5, w 6, w 7]⟩

/-- Changes a context wherever it is: its slot, or the 64-bit word at `off` of its save area (R227). A removed
one takes nothing but bead decrements. -/
def State.atCtx (s : State) (c : Nat) (id : BitVec 32) (f : Slot → Slot) (off : Nat)
    (g : Word → Word) : State :=
  match (s.ctx c id).map Ctx.loc with
  | some (.slot n) => s.modSlot (slotKey c n.val) f
  | some (.saved area asid) =>
    s.areaStore c area asid off 8 (g (BitVec.ofNat 64 (s.areaLoad c area asid off 8))).toNat
  | _ => s

/-- Whether a context belongs to an actor that has not been removed: in its slot, or evicted. -/
def State.present (s : State) (c : Nat) (id : BitVec 32) : Bool :=
  match (s.ctx c id).map Ctx.loc with
  | some (.slot n) => decide ((s.slot (slotKey c n.val)).status = .live)
  | some (.saved _ _) => true
  | _ => false

/-- FENG of a context takes a fault (R212, R188); a removed context takes none (R227). -/
def State.credit (s : State) (c : Nat) (id : BitVec 32) (cause : BitVec 10) (origin : BitVec 4) : State :=
  if !s.present c id then s
  else s.atCtx c id (fun sl => { sl with feng := fengAfter sl.feng cause origin }) 0x3B0
    fun w => fengAfter w cause origin

/-- Flags ORed into a context's FLAGS (R50). -/
def State.creditFlags (s : State) (c : Nat) (id : BitVec 32) (fl : BitVec 7) : State :=
  if fl = 0 ∨ !s.present c id then s
  else s.atCtx c id (fun sl => { sl with flags := sl.flags ||| fl }) 0x058 fun w => w ||| fl.setWidth 64

/-- A counter lowered by one, never below 0 (R91). -/
def beadDown (b : BitVec 6) : BitVec 6 := if b = 0 then 0 else b - 1

/-- The decrement of a context's bead (R91, R225, R227): BEADS holds six bits a counter. -/
def State.beadReply (s : State) (c : Nat) (id : BitVec 32) (b : Fin 4) : State :=
  match (s.ctx c id).map Ctx.loc with
  | some (.removed _) =>
    (s.modCore c fun co => { co with ctxs := co.ctxs.map fun e => match e.loc with
      | .removed beads => if e.id = id then { e with loc := .removed (beads.set b (beadDown beads[b])) } else e
      | _ => e }).settleAway c
  | loc =>
    let s := s.atCtx c id (fun sl => { sl with beads := sl.beads.set b (beadDown sl.beads[b]) }) 0x080
      fun w => if bits w (6 * b.val + 5) (6 * b.val) = 0 then w else w - BitVec.ofNat 64 (2 ^ (6 * b.val))
    match loc with
    | some (.slot n) => s.settle c n.val
    | _ => s

/-! ### The pool and candidates -/

/-- Pool entries in use at a core (R175). -/
def State.poolUsed (s : State) (c : Nat) : Nat :=
  (s.core c).claimed + (s.core c).joins + ((List.range 8).map fun n =>
    let sl := s.slot (slotKey c n)
    if sl.status = .live then
      sl.granted + (sl.mb.toList.map fun m => if m.conf then m.quota.toNat else 0).sum
    else 0).sum

/-- Whether an entry of the pool is free. -/
def State.poolFree (s : State) (c n : Nat) : Bool := decide (s.poolUsed c + n ≤ 128)

/-- Messages of a mailbox that count against its quota (R174, R177). -/
def Mailbox.count (m : Mailbox) : Nat := (m.held.filter fun h => h.entry = .quota).length

/-- Base priority of a message type at a core: PRIO of its vector entry (R173). -/
def State.typePrio (s : State) (c type : Nat) : BitVec 2 :=
  ((s.core c).vect[ix 256 type]).extractLsb' 56 2

/-- Positions in a mailbox that may be candidates (R182): the head of an unordered mailbox's quota
messages, the NEXTKEY message of an ordered one, and the earliest reserved or claimed message. -/
def Mailbox.heads (m : Mailbox) : List Nat :=
  (findPos (fun h => h.entry = .quota && (!m.ord || h.msg.key = m.nextKey)) m.held).toList ++
  (findPos (fun h => h.entry ≠ .quota) m.held).toList

/-- Whether candidate `x` (priority, arrival, mailbox) goes before `y` (R182). -/
def before (x y : Nat × Nat × Nat) : Bool :=
  decide (y.1 < x.1) || (decide (x.1 = y.1) &&
    (decide (x.2.1 < y.2.1) || (decide (x.2.1 = y.2.1) && decide (x.2.2 < y.2.2))))

/-- The best of a list of ranked things. -/
def best {α : Type} (rank : α → Nat × Nat × Nat) : List α → Option α
  | [] => none
  | x :: xs =>
    match best rank xs with
    | none => some x
    | some y => if before (rank y) (rank x) then some y else some x

/-- Full periods of 4,096 cycles that an activation has been ready (R183). -/
def State.readyPeriods (s : State) (sl : Slot) : Nat := (s.cycle - sl.since) / 4096

/-- The actor's candidate: mailbox and position (R182). The present candidate, which is ready, counts with the
priority that it has reached (R183, R186). -/
def State.candidate (s : State) (c n : Nat) : Option (Fin 4 × Nat) :=
  let sl := s.slot (slotKey c n)
  let aged (e : Fin 4 × Nat) : Nat := if sl.cand = some e then s.readyPeriods sl else 0
  best (fun e => match (sl.mb[e.1]).held[e.2]? with
      | some h => (Nat.min 3 ((s.typePrio c h.msg.type).toNat + aged e), h.arr, e.1.val)
      | none => (0, 0, 0))
    ((List.finRange 4).flatMap fun b => (sl.mb[b]).heads.map fun i => (b, i))

/-- Chooses the candidate again; it is ready from now on if it is a new one (R183). -/
def State.refresh (s : State) (k : Nat) : State :=
  let c := keyCore k
  let n := (keySlot k).val
  if (s.slot k).phase = .idle ∧ (s.slot k).status = .live then
    let old := (s.slot k).cand
    let new := s.candidate c n
    s.modSlot k fun sl => 
      { sl with cand := new, since := if new = old then sl.since else s.cycle,
                aged := if new = old then sl.aged else 0 }
  else s.modSlot k fun sl => { sl with cand := none }

/-- Chooses the candidates of a core's slots again, after a change of its message types' priorities. -/
def State.refreshCore (s : State) (c : Nat) : State :=
  (List.range 8).foldl (fun s n => if (s.slot (slotKey c n)).status = .live then s.refresh (slotKey c n) else s) s

/-! ### Judging an arriving message (R174) -/

/-- The fate of an arriving message. -/
inductive Fate where
  | discarded
  | ring (area : Word) (asid : BitVec 16)
  | refused
  | accepted (k : Nat) (entry : Entry)
  | keyPast (k : Nat)
  deriving DecidableEq, Repr

/-- The context that an EVC entry of a type belongs to (R173, R227). -/
def State.evicted (s : State) (c type : Nat) : Option (Word × BitVec 16) :=
  ((s.core c).ctxs.findSome? fun e =>
    match e.loc with
    | .saved area asid => if e.types.contains type then some (area, asid) else none
    | _ => none)

/-- Whether the overflow ring of a save area has room (R225, R226). -/
def State.ringRoom (s : State) (c : Nat) (area : Word) (asid : BitVec 16) : Bool :=
  decide ((s.areaLoad c area asid 0x030 4 + 2 ^ 32 - s.areaLoad c area asid 0x02C 4) % 2 ^ 32
    < s.areaLoad c area asid 0x028 4)

/-- The 64 bytes of a message (R170). -/
def Msg.bytes (m : Msg) : List Byte :=
  leBytes m.hdr0.toNat 8 ++ leBytes m.hdr1.toNat 8 ++ m.pay.toList.flatMap fun w => leBytes w.toNat 8

/-- A message from its 64 bytes. -/
def Msg.ofBytes (b : List Byte) : Msg :=
  let w (i : Nat) : Word := BitVec.ofNat 64 (leNat ((b.drop (8 * i)).take 8))
  ⟨w 0 &&& headMask, w 1, #v[w 2, w 3, w 4, w 5, w 6, w 7]⟩

/-- The messages that an overflow ring holds, oldest first (R226). -/
def State.ringMsgs (s : State) (c : Nat) (area : Word) (asid : BitVec 16) : List Msg :=
  let cap := s.areaLoad c area asid 0x028 4
  let head := s.areaLoad c area asid 0x02C 4
  let count := (s.areaLoad c area asid 0x030 4 + 2 ^ 32 - head) % 2 ^ 32
  let base := BitVec.ofNat 64 (s.areaLoad c area asid 0x020 8)
  (List.range (Nat.min count cap)).filterMap fun i =>
    (s.placeOf c asid (base + BitVec.ofNat 64 (64 * ((head + i) % cap)))).map fun key =>
      Msg.ofBytes (Memory.bytes s.mem key 64)

/-- Whether ring messages of a restored actor for an unordered mailbox remain (R226). -/
def State.ringHolds (s : State) (c : Nat) (sl : Slot) (mb : Fin 4) : Bool :=
  sl.rings.any fun e => (s.ringMsgs c e.1 e.2).any fun m => m.mb = mb

/-- R174 for a live slot whose vector entry matches: the rows from the mailbox row on. A key is held from its
message's acceptance until NEXTKEY has passed it (R177). -/
def State.judgeSlot (s : State) (k : Nat) (m : Msg) (claimed : Bool) : Fate :=
  let sl := s.slot k
  let b := sl.mb[m.mb]
  if !b.conf ∨ !b.mask.getLsbD m.type then .discarded
  else if claimed then .accepted k .claimed
  else if m.vc then
    if sl.resv.contains m.rtag ∧
        !(sl.mb.toList.any fun x => x.held.any fun h => h.entry = .reserved m.rtag) then
      .accepted k (.reserved m.rtag)
    else .discarded
  else if b.ord then
    let d := m.key - b.nextKey
    if d.msb then .keyPast k
    else if 16 ≤ d.toNat then .refused
    else if (b.held.any fun h => h.entry = .quota && h.msg.key = m.key) ∨
        (sl.keyed = some m.mb ∧ m.key = b.nextKey) then .refused
    else if b.quota.toNat ≤ b.count then .refused
    else .accepted k .quota
  else if b.quota.toNat ≤ b.count then .refused
  else if s.ringHolds (keyCore k) sl m.mb then .refused
  else .accepted k .quota

/-- The fate of an arriving message, by the first row of R174 that applies. -/
def State.judge (s : State) (c : Nat) (m : Msg) (claimed : Bool) : Fate :=
  let e := (s.core c).vect[ix 256 m.type]
  if !bit e 63 then .discarded
  else if bit e 55 then
    match s.evicted c m.type with
    | some (area, asid) => if s.ringRoom c area asid then .ring area asid else .refused
    | none => .discarded
  else
    let k := slotKey c (bits e 62 60)
    if (s.slot k).status ≠ .live ∨ (s.slot k).cls.toNat ≠ bits e 59 58 then .discarded
    else s.judgeSlot k m claimed

/-- Places an accepted message in its mailbox (R175, R176). -/
def State.accept (s : State) (k : Nat) (m : Msg) (entry : Entry) : State :=
  let s := s.modSlot k fun sl =>
    let b := sl.mb[m.mb]
    let b := { b with held := b.held ++ [⟨m, s.cycle, entry⟩], arrivals := b.arrivals + 1 }
    { sl with mb := sl.mb.set m.mb b }
  s.refresh k

/-- The entry that a saved message occupies: by the origin in its header (R171, R174). -/
def entryOf (m : Msg) : Entry :=
  if m.kind = 1 then .reserved m.rtag
  else if 2 ≤ m.kind ∧ m.kind ≤ 4 then .claimed
  else .quota

/-- How many of some messages hold a claimed pool entry (R180, R197). -/
def claimsIn (l : List Msg) : Nat := (l.filter fun m => entryOf m = .claimed).length

/-- Appends a message at OVFTAIL of an overflow ring (R226). -/
def State.ringAppend (s : State) (c : Nat) (area : Word) (asid : BitVec 16) (m : Msg) : State :=
  let cap := s.areaLoad c area asid 0x028 4
  let tail := s.areaLoad c area asid 0x030 4
  let base := BitVec.ofNat 64 (s.areaLoad c area asid 0x020 8)
  let s := match s.placeOf c asid (base + BitVec.ofNat 64 (64 * (tail % cap))) with
    | some key => ((s.open key 64).eccClear key 64).store key m.bytes
    | none => s
  s.areaStore c area asid 0x030 4 (tail + 1)

/-- The removal log's counter (R188, R191, R197, R216). -/
def State.logRemoval (s : State) (n : Nat) : State :=
  s.modModule fun m => { m with removals := m.removals + n }

/-- A claimed entry of a core's pool returns to it (R180). -/
def State.unclaim (s : State) (c : Nat) : State :=
  s.modCore c fun co => { co with claimed := co.claimed - 1 }

/-- The slot that waits for a posted message or command (R145). -/
def State.postWaiter (s : State) (id : Nat) : Option (Nat × Word × Nat × Nat) :=
  s.slots.findSome? fun e =>
    match e.2.phase with
    | .blocked (.post i va len cost) => if i = id then some (e.1, va, len, cost) else none
    | _ => none

/-- Charges cycles to an activation (R105, R184). -/
def Slot.charge (sl : Slot) (n : Nat) : Slot :=
  { sl with used := sl.used + BitVec.ofNat 32 n, ran := sl.ran + n }

/-- An activation that waited becomes ready (R183). -/
def State.awaken (s : State) (k : Nat) : State :=
  s.modSlot k fun sl => { sl with phase := .ready, since := s.cycle, aged := 0 }

/-- A waiting activation's instruction completes: it is charged, the PC moves on, and the activation
is ready (R141, R145, R156). -/
def State.finishWait (s : State) (k len cost : Nat) : State :=
  (s.modSlot k fun sl => { sl.charge cost with pc := sl.pc + BitVec.ofNat 52 len }).awaken k

end Sys2Proof.Machine
end

