-- ==== Sys2Proof/Machine/Ops.lean ====
section
/-! DEFINITION. The shared operations: performing posted stores, ending activations, removal (R168),
launch accounts (R197), containment (R213 to R216), taking a trap (R210) and returning from an
emulation routine (R230), and the running of one instruction (R65, R105, R184). -/

namespace Sys2Proof.Machine

/-! ### Posted stores and releases -/

/-- Performs a posted request: its rows are opened, and its bytes stored (R141, R356, R367). -/
def State.performPosted (s : State) (r : Request) : State :=
  match r.op with
  | .write n v => ((s.openRows r.key n).eccClear r.key n).storeLE r.key n v
  | _ => s

/-- Whether a request is a posted store of a source. -/
def Request.postedBy (r : Request) (core : Nat) (ctxid : BitVec 32) : Bool :=
  decide (r.core = core) && decide (r.ctxid = ctxid) && r.cont.isNone

/-- A posted store that a release performs; the step waits where the store is held (R362, R399). -/
def State.flush (s : State) (r : Request) : State := (s.touch r.key r.op.size).performPosted r

/-- Performs every posted store of a source, in program order: what a release needs (R162, R164,
log 7). -/
def State.drain (s : State) (core : Nat) (ctxid : BitVec 32) : State :=
  let s' := (s.net.reqs.filter fun r => r.postedBy core ctxid).foldl State.flush s
  s'.modNet fun n => { n with reqs := n.reqs.filter fun r => !r.postedBy core ctxid }

/-- The release of a slot's earlier accesses. -/
def State.release (s : State) (k : Nat) : State := s.drain (keyCore k) (s.slot k).ctxid

/-! ### Event pages and launches (R196, R197, R396) -/

/-- Changes a system core. -/
def State.modHart (s : State) (n : Nat) (f : Hart → Hart) : State :=
  s.modSDie fun d => { d with harts := d.harts.set n (f (AMap.get .reset d.harts n)) }

/-- Sends an MSI: the interrupt identity of the page becomes pending in the IMSIC of its hart (R392, R396). -/
def State.sendMsi (s : State) (page : Nat) : State :=
  let e := AMap.get 0 s.sdie.evtpg page
  let hart := bits e 63 48
  let s := s.modSDie fun d =>
    { d with msis := (hart, bits e 11 0) :: d.msis, lastMsi := d.lastMsi.set page (s.ns + 1),
             msiDue := AMap.erase d.msiDue page }
  s.modHart hart fun h => { h with pending := insertRising (bits e 11 0) h.pending }

/-- An MSI to the page's hart now, or when the coalescing window ends (R396); `lastMsi` holds one more than the
time of the last. -/
def State.msi (s : State) (page : Nat) : State :=
  let last := AMap.get 0 s.sdie.lastMsi page
  let due := last - 1 + s.sdie.evtcfg.toNat
  if s.sdie.evtcfg = 0 ∨ last = 0 ∨ due ≤ s.ns then s.sendMsi page
  else s.modSDie fun d => { d with msiDue := d.msiDue.set page due }

/-- Writes an end-of-launch record to an event page (R197, R396). Only from the 256th record on may one still
unread be overwritten. -/
def State.eventRecord (s : State) (page id done flt cause child : Nat) : State :=
  let base := s.own (bits (AMap.get 0 s.sdie.evtpg page) 47 12 * 4096)
  let count := s.loadLE base 8
  let n := count % 2 ^ 63
  let seq := AMap.get 0#32 s.sdie.pageSeq page
  let rec16 := leBytes id 4 ++ leBytes done 2 ++ leBytes flt 2 ++ leBytes cause 2 ++ leBytes child 2 ++
    leBytes seq.toNat 4
  let s := (s.open base 4096).store (base + 16 + 16 * (n % 255)) rec16
  let lost := decide (2 ^ 63 ≤ count) || (decide (255 ≤ n) && Config.eventUnread s.tick)
  let s := s.storeLE base 8 (n + 1 + (if lost then 2 ^ 63 else 0))
  (s.modSDie fun d => { d with pageSeq := d.pageSeq.set page (seq + 1) }).msi page

/-- Fields of a launch record (R192). -/
def Launch.flags (l : Launch) : Nat := bits l.words[0] 15 8
def Launch.colour (l : Launch) : BitVec 6 := l.words[0].extractLsb' 16 6
def Launch.scope (l : Launch) : Nat := bits l.words[0] 26 24
def Launch.joinTo (l : Launch) : Nat := bits l.words[0] 47 32
def Launch.desc (l : Launch) : Word := l.words[2]
def Launch.gen (l : Launch) : Word := l.words[3]
def Launch.cls (l : Launch) : BitVec 2 := l.words[4].extractLsb' 0 2
def Launch.rres (l : Launch) : Nat := bits l.words[4] 15 8
def Launch.mb0q (l : Launch) : Nat := bits l.words[4] 23 16
def Launch.budget (l : Launch) : BitVec 32 := l.words[4].extractLsb' 32 32
def Launch.n (l : Launch) : Nat := l.cores.length

/-- Whether a record asks for a JOIN message, which takes an entry of the launcher's pool (R197). -/
def wantsJoin (w : Vector Word 8) : Bool := bit w[0] 8 && !bit w[0] 9

/-- The JOIN message or event record of a finished launch (R197): the launcher's entry was kept for it until
now, or left with the launcher. -/
def State.finishLaunch (s : State) (die : Nat) (l : Launch) : State :=
  let s := s.modDie die fun d => { d with launches := d.launches.filter fun x => x.id ≠ l.id }
  let (child, cause) := l.first.getD (0, 0)
  if l.launcher = .restart then s
  else if bit l.words[0] 9 then
    s.eventRecord l.joinTo l.id l.completed l.faulted cause.toNat child
  else if bit l.words[0] 8 then
    match l.launcher with
    | .slot core n ctxid cls =>
      if !s.present core ctxid then s.logRemoval 1
      else
        let a2 := if l.faulted = 0 then 0#64
          else fields [(1, 63), (child, 32), (cause.toNat, 0)]
        let s := s.modCore core fun c => { c with joins := c.joins - 1, claimed := c.claimed + 1 }
        s.send core (s.header 3 core n.val cls.toNat l.jobcol.toNat false false (l.joinTo / 256 % 4)
            (l.joinTo % 256)) 0 0
          #v[BitVec.ofNat 64 l.id, fields [(l.faulted, 32), (l.completed, 0)], a2, 0, 0, 0]
          core ctxid .notice true
    | _ => s
  else s

/-- A child of a launch has completed (`fault` = none) or faulted (R197). -/
def State.childEnd (s : State) (m : Membership) (fault : Option (BitVec 10)) : State :=
  match (s.die m.die).launches.find? fun l => l.id = m.id with
  | none => s
  | some l =>
    let l := match fault with
      | none => { l with completed := l.completed + 1 }
      | some c =>
        let first := match l.first with
          | some (ch, c') => if m.child < ch then some (m.child, c) else some (ch, c')
          | none => some (m.child, c)
        { l with faulted := l.faulted + 1, first := first }
    if l.completed + l.faulted = l.n then s.finishLaunch m.die l
    else s.modDie m.die fun d =>
      { d with launches := d.launches.map fun x => if x.id = l.id then l else x }

/-! ### The end of an activation and removal (R129, R168, R177) -/

/-- Frees the pipeline of a core if slot `k` holds it. -/
def State.yieldCore (s : State) (k : Nat) : State :=
  s.modCore (keyCore k) fun c =>
    { c with running := if c.running = some (keySlot k) then none else c.running }

/-- The slot after its activation has retired or faulted (R177). -/
def Slot.closed (sl : Slot) : Slot :=
  { sl with
    phase := .idle
    mb := match sl.keyed with
      | some b => sl.mb.set b { sl.mb[b] with nextKey := (sl.mb[b]).nextKey + 1 }
      | none => sl.mb
    keyed := none
    retries := []
    exiting := false }

/-- A slot with EMU.ACT clear (R219, R230). -/
def Slot.leaveEmulation (sl : Slot) : Slot := { sl with emu := sl.emu &&& ~~~1#64 }

/-- Ends the activation of slot `k`: NEXTKEY advances and the next candidate is chosen. -/
def State.endActivation (s : State) (k : Nat) : State :=
  ((s.modSlot k Slot.closed).yieldCore k).refresh k

/-- Whether a context issued a command. -/
def Cmd.of (x : Cmd) (c : Nat) (id : BitVec 32) : Bool :=
  x.issuer.any fun i => decide (i.core = c) && decide (i.ctxid = id)

/-- The commands that may hold a claimed pool entry: those of the MXUs, the vector units and the Ladles. -/
def State.claimants (s : State) : List Cmd :=
  s.cores.flatMap (fun e => e.2.mxuIn ++ e.2.mxuRun.map Started.cmd ++ e.2.vecIn ++ e.2.vecRun.map Started.cmd) ++
    s.clusters.toList.flatMap fun u => u.chans.toList.flatMap fun x =>
      x.inbox ++ x.cur.toList.map fun y => y.started.cmd

/-- Changes those commands. -/
def State.modClaimants (s : State) (f : Cmd → Cmd) : State :=
  let started (x : Started) : Started := { x with cmd := f x.cmd }
  { s with
    cores := s.cores.map fun (e : Nat × Core) =>
      (e.1, { e.2 with mxuIn := e.2.mxuIn.map f, mxuRun := e.2.mxuRun.map started,
                       vecIn := e.2.vecIn.map f, vecRun := e.2.vecRun.map started })
    clusters := s.clusters.map fun u => { u with chans := u.chans.map fun x =>
      { x with inbox := x.inbox.map f, cur := x.cur.map fun y => { y with started := started y.started } } } }

/-- The launches that pre-emptions in progress hold back (R222). -/
def Net.heldLaunches (n : Net) : List Launch :=
  (n.sups.filter fun u => u.result.isNone).flatMap fun u => match u.op with
    | .preempt _ _ _ _ again _ => again.map Prod.snd
    | _ => []

/-- The pool entries that leave with a removed context: those of its commands (R180), of its detectors (R202) and
of its launches (R197). -/
def State.freeEntries (s : State) (c : Nat) (id : BitVec 32) : State :=
  let mine := s.claimants.filter fun x => x.of c id
  let s := (mine.filterMap Cmd.claimed).foldl State.unclaim s
  let s := if mine.any fun x => x.claimed.isSome then
      s.modClaimants fun x => if x.of c id then { x with claimed := none } else x
    else s
  let armed := (s.module.detect.filter fun x => decide (x.core = c) && decide (x.ctxid = id)).length
  let joins := (s.dies.toList.flatMap Die.launches ++ s.net.heldLaunches).filter fun l => wantsJoin l.words && match l.launcher with
    | .slot core _ ctxid _ => decide (core = c) && decide (ctxid = id)
    | _ => false
  s.modCore c fun co => { co with claimed := co.claimed - armed, joins := co.joins - joins.length }

/-- The RGSET entries of a context leave (R207). -/
def State.clearGuards (s : State) (c : Nat) (id : BitVec 32) : State :=
  s.modCore c fun co => { co with guards := co.guards.filter fun g =>
    !(g.cmd.isNone && decide (g.core = c) && decide (g.ctxid = id)) }

/-- The messages that wait in the overflow rings of a restored actor, oldest first (R226). -/
def State.slotRing (s : State) (k : Nat) : List Msg :=
  (s.slot k).rings.flatMap fun e => s.ringMsgs (keyCore k) e.1 e.2

/-- The save areas whose rings may hold messages for an evicted actor, oldest first: those of its earlier evictions,
then its own (R226). -/
def Ctx.allRings (x : Ctx) (area : Word) (asid : BitVec 16) : List (Word × BitVec 16) :=
  x.rings.filter (fun e => e ≠ (area, asid)) ++ [(area, asid)]

/-- The messages in the rings of an evicted actor. -/
def State.awayRing (s : State) (c : Nat) (x : Ctx) (area : Word) (asid : BitVec 16) : List Msg :=
  (x.allRings area asid).flatMap fun e => s.ringMsgs c e.1 e.2

/-- Messages of an actor are discarded with it (R168, R191): they are counted, and their claimed entries are
free. -/
def State.discardMsgs (s : State) (c : Nat) (l : List Msg) : State :=
  (s.logRemoval l.length).modCore c fun co => { co with claimed := co.claimed - claimsIn l }

/-- Removes the actor of slot `k` (R168): `fault` is none for an exit. Its accesses are performed first, since a
JOIN acquires them (R197). -/
def State.removeActor (s : State) (k : Nat) (fault : Option (BitVec 10)) : State :=
  let c := keyCore k
  let n := (keySlot k).val
  let sl := s.slot k
  if sl.status ≠ .live then s
  else
    let held := (sl.mb.toList.flatMap Mailbox.held).map Held.msg
    let ring := s.slotRing k
    let s := (((s.release k).discardMsgs c (held ++ ring)).yieldCore k).freeEntries c sl.ctxid
    let s := (s.modCore c fun co =>
      { co with
        vect := co.vect.map fun e =>
          if bit e 63 ∧ !bit e 55 ∧ bits e 62 60 = n then e &&& ~~~(1#64 <<< 63) else e }).clearGuards c sl.ctxid
    let s := s.modSlot k fun sl =>
      { sl.closed with status := .removing, mb := .replicate 4 .reset, granted := 0, resv := [],
                       cand := none, frozen := false, exiting := false, postLine := none,
                       rings := [], launch := none }
    let s := match sl.launch with
      | some m => s.childEnd m fault
      | none => s
    s.settle c n

/-- Removes an evicted actor: its messages are discarded, its vector entries are invalidated, and its context
keeps the beads of its commands (R168, R173, R214, R227). -/
def State.removeEvicted (s : State) (c : Nat) (e : Ctx) (fault : Option (BitVec 10)) : State :=
  match e.loc with
  | .saved area asid =>
    let beads := s.areaLoad c area asid 0x080 4
    let s := (s.discardMsgs c (s.areaMsgs c area asid ++ s.awayRing c e area asid)).freeEntries c e.id
    let s := (s.modCore c fun co =>
      { co with
        vect := co.vect.mapFinIdx fun i v _ =>
          if bit v 55 ∧ e.types.contains i then v &&& ~~~(1#64 <<< 63) &&& ~~~(1#64 <<< 55) else v
        ctxs := co.ctxs.map fun x => if x.id = e.id then
            ⟨e.id, .removed (Vector.ofFn fun i : Fin 4 => BitVec.ofNat 6 (beads / 2 ^ (6 * i.val))), [], none, false, [], []⟩
          else x }).clearGuards c e.id
    let s := match e.launch with
      | some m => s.childEnd m fault
      | none => s
    s.settleAway c
  | _ => s

/-! ### Notices and containment (R213 to R216) -/

/-- A notice of KIND 6 to the mailbox that a destination register names (R216, R364, R365). -/
def State.notice (s : State) (dst : BitVec 22) (pay : Vector Word 6) : State :=
  let src := Config.noticeSender s.tick
  s.send sDieNo (s.header 6 (bits src 11 0) (bits src 14 12) (bits src 16 15) (bits src 22 17) false false
    (bits dst 21 20) (bits dst 7 0)) 0 0 pay (bits dst 19 8) 0 .notice false

/-- The area of a cause (R209). -/
def areaOf (cause : BitVec 10) : Nat :=
  let c := cause.toNat
  if c < 0x100 then 0 else if c < 0x200 then 1 else if c < 0x300 then 2
  else if c < 0x380 then 3 else if c < 0x3C0 then 4 else 5

/-- The policy code of a level for an area (R213). SYS absorbs by removing (R214). -/
def State.policy (s : State) (level core area : Nat) : Nat :=
  let code {n : Nat} (x : BitVec n) (off : Nat) := bits x (off + 2 * area + 1) (off + 2 * area)
  if level = scLane then code (s.core core).cpol 0
  else if level = scCore then code (s.core core).cpol 12
  else if level = scQuad then code (s.cluster (clusterOf core)).policy 0
  else if level = scClus then code (s.cluster (clusterOf core)).policy 12
  else if level = scDie then code (s.die (dieOf core)).policy 0
  else if level = scMod then code s.module.policy 0
  else 2

/-- A fault on its way up the levels: the actor's slot, cause, ORIGIN, whether an activation trapped
(else a command or a discarded message did), and what the notice carries. -/
structure FaultInfo where
  key     : Nat
  cause   : BitVec 10
  origin  : BitVec 4
  trapped : Bool
  pc      : BitVec 52
  addr    : Word
  asid    : BitVec 16
  colour  : BitVec 6
  ctxid   : BitVec 32
  deriving DecidableEq, Repr

/-- FCAUSE with LEVEL, ACTION, ORIGIN, RETRIES and CAUSE (R211). -/
def fcauseWord (level action : Nat) (origin : BitVec 4) (retries : Nat) (cause : BitVec 10) : Word :=
  fields [(1, 63), (level, 29), (action, 27), (origin.toNat, 20), (Nat.min retries 15, 16), (cause.toNat, 0)]

/-- The notice of an absorbed fault or a freeze (R216). -/
def State.faultNotice (s : State) (f : FaultInfo) (level action : Nat) (frozen : Bool) : State :=
  let c := keyCore f.key
  let a0 := fields [(f.cause.toNat, 0), (level, 10), (action, 13), (frozen.toNat, 15), (c, 16),
    ((keySlot f.key).val, 28), (f.colour.toNat, 32), (f.asid.toNat, 48)]
  (s.drain c f.ctxid).notice (s.core c).trapdst
    #v[a0, f.pc.setWidth 64, f.addr, f.ctxid.setWidth 64, 0, 0]

/-- Whether the faulting actor lives in its slot. -/
def State.isActor (s : State) (f : FaultInfo) : Bool :=
  decide ((s.slot f.key).status = .live) && decide ((s.slot f.key).ctxid = f.ctxid)

/-- The faulting actor where it has been evicted (R214). -/
def State.isAway (s : State) (f : FaultInfo) : Option Ctx :=
  (s.ctx (keyCore f.key) f.ctxid).filter fun x => match x.loc with
    | .saved _ _ => true
    | _ => false

/-- Removes the faulting actor itself. -/
def State.removeSelf (s : State) (f : FaultInfo) : State :=
  if s.isActor f then s.removeActor f.key (some f.cause)
  else match s.isAway f with
    | some x => s.removeEvicted (keyCore f.key) x (some f.cause)
    | none => s

/-- Removes the victim set of a level (R214): at LANE and CORE the faulting actor alone. -/
def State.removeVictims (s : State) (f : FaultInfo) (level : Nat) : State :=
  if level ≤ scCore then s.removeSelf f
  else
    let c := keyCore f.key
    let s' := s.slots.foldl (fun t e =>
      if sameScope level c (keyCore e.1) ∧ e.2.jobcol = f.colour ∧ e.2.asid = f.asid then
        t.removeActor e.1 (some (if e.1 = f.key ∧ e.2.ctxid = f.ctxid then f.cause else 0x212#10))
      else t) s
    s.cores.foldl (fun t e => e.2.ctxs.foldl (fun t x =>
      match x.loc with
      | .saved area asid =>
        if sameScope level c e.1 ∧ s.areaLoad e.1 area asid 0x006 2 = f.asid.toNat ∧
            s.areaLoad e.1 area asid 0x01C 1 = f.colour.toNat then
          t.removeEvicted e.1 x (some (if e.1 = c ∧ x.id = f.ctxid then f.cause else 0x212#10))
        else t
      | _ => t) t) s'

/-- Cancels the unplaced children of every launch of a colour and ASID (R214). -/
def State.cancelLaunches (s : State) (colour : BitVec 6) (asid : BitVec 16) : State :=
  (List.range 4).foldl (fun s d =>
    (s.die d).launches.foldl (fun s l =>
      if l.colour = colour ∧ l.asid = asid then
        let s := s.modDie d fun x => { x with launches := x.launches.map fun y =>
          if y.id = l.id then { y with waiting := [] } else y }
        l.waiting.foldl (fun s ch => s.childEnd ⟨d, l.id, ch⟩ (some 0x212#10)) s
      else s) s) s

/-- Records what a level did in FCAUSE (R211), of the actor in its slot or in its save area (R225). -/
def State.recordLevel (s : State) (f : FaultInfo) (level action retries : Nat) : State :=
  let w := fcauseWord level action f.origin retries f.cause
  if s.isActor f then s.modSlot f.key fun sl => { sl with fcause := w }
  else s.atCtx (keyCore f.key) f.ctxid (fun sl => { sl with fcause := w }) 0x390 fun _ => w

/-- Retries so far of this activation at a level and PC (R214). -/
def Slot.retried (sl : Slot) (level : Nat) (pc : BitVec 52) : Nat :=
  match sl.retries.find? fun r => decide (r.level = level) && decide (r.pc = pc) with
  | some r => r.count
  | none => 0

/-- Makes a trapped activation ready again after 1 µs (R214), at the routine's entry inside an
emulation routine (R219). -/
def State.retryLater (s : State) (f : FaultInfo) (level : Nat) : State :=
  (s.modSlot f.key fun sl =>
    { sl with
      phase := .blocked (.retryAt (s.ns + us 1))
      pc := if bit sl.emu 0 then sl.emuEntry else sl.pc
      retries := ⟨level, f.pc, sl.retried level f.pc + 1⟩ ::
        sl.retries.filter fun r => !(decide (r.level = level) && decide (r.pc = f.pc)) }).yieldCore f.key

/-- Ends a faulted activation (R129, R219): EMU.ACT is clear again. -/
def State.failActivation (s : State) (k : Nat) : State := (s.modSlot k Slot.leaveEmulation).endActivation k

/-- Consults the policies of the given levels, lowest first, until one absorbs (R214). RETRIES does not count the retry
that is being given (log 94). -/
def State.contain (s : State) (f : FaultInfo) : List Nat → State
  | [] => s
  | level :: up =>
    let code := if f.cause = 0x010#10 ∧ level = scCore then 2
      else s.policy level (keyCore f.key) (areaOf f.cause)
    let live := s.isActor f
    let past := (s.slot f.key).retried level f.pc
    if code = 1 ∧ f.trapped ∧ live ∧ f.cause ≠ 0x210#10 then
      if past < 3 then
        let s := s.recordLevel f level 1 past
        (s.retryLater f level).faultNotice f level 1 false
      else State.contain s f up
    else
      let code := if code = 1 then 0 else code
      let s := if live ∨ (s.isAway f).isSome then s.recordLevel f level code past else s
      let s := if 2 ≤ code then s.removeVictims f level else s
      let s := if level = scSys then s.cancelLaunches f.colour f.asid else s
      if code = 3 then State.contain s f up
      else
        let s := if code = 0 ∧ f.trapped ∧ s.isActor f then s.failActivation f.key else s
        if code = 0 ∧ level = scLane then s else s.faultNotice f level code false

/-- The levels from `level` up to SYS. -/
def levelsFrom (level : Nat) : List Nat := (List.range 7).drop level

/-- What containment needs to know of the actor of slot `k`. -/
def State.faultInfo (s : State) (k : Nat) (cause : BitVec 10) (origin : BitVec 4) (trapped : Bool)
    (pc : BitVec 52) (addr : Word) : FaultInfo :=
  let sl := s.slot k
  ⟨k, cause, origin, trapped, pc, addr, sl.asid, sl.jobcol, sl.ctxid⟩

/-! ### Taking a trap (R210, R211, R215 to R219) -/

/-- An address as the PC receives it (R51): bit 0 cleared. -/
def evenPc (x : BitVec 52) : BitVec 52 := x &&& ~~~1#52

/-- What an emulation record may bind (R79): EKIND and CODE. -/
abbrev EmuKey := Nat × Nat

/-- Whether a load descriptor lies in the HBM data part and holds this generation (R84, log 21). -/
def State.descHolds (s : State) (desc gen : Word) : Bool :=
  decide (desc.toNat % 64 = 0) && decide (desc.toNat + 64 ≤ hbmEnd) &&
  decide (s.loadLE (s.own (desc.toNat + 8)) 8 = gen.toNat) && decide (gen ≠ 0)

/-- The emulation record of a slot's object that binds a key: EKIND, CODE and the routine's address
(R79, R84, R218). -/
def State.emuBinding (s : State) (sl : Slot) (key : EmuKey) : Option (Nat × Nat × BitVec 52) :=
  if !s.descHolds sl.desc sl.gen then none
  else
    let d := s.own sl.desc.toNat
    let etab := s.own (s.loadLE (d + 0x28) 8)
    let code := s.loadLE (d + 0x30) 8
    (List.range (s.loadLE (d + 0x22) 2)).findSome? fun i =>
      let r := etab + 16 * i
      if s.loadLE r 1 = key.1 ∧ s.loadLE (r + 2) 2 = key.2 then
        some (key.1, key.2, evenPc (BitVec.ofNat 52 (code + s.loadLE (r + 4) 4)))
      else none

/-- Enters an emulation routine (R218): no other state changes, and the entry charges 2 cycles. -/
def Slot.emulate (sl : Slot) (b : Nat × Nat × BitVec 52) : Slot :=
  { sl.charge 2 with
    epc := sl.pc
    einst := sl.inst
    emu := fields [(1, 0), (b.1, 1), (b.2.1, 16)]
    emuEntry := b.2.2
    pc := b.2.2 }

/-- The fault CSRs that a trap writes (R211). -/
def Slot.record (sl : Slot) (cause : BitVec 10) (addr : Word) : Slot :=
  { sl with fcause := fcauseWord 0 0 0 0 cause, fpc := sl.pc, finst := sl.inst, faddr := addr }

/-- Whether a charge would take USED past a non-zero BUDGET (R184). -/
def Slot.over (sl : Slot) (n : Nat) : Bool :=
  decide (sl.budget ≠ 0) && decide (sl.budget.toNat < sl.used.toNat + n)

/-- Freezes the actor of a slot at the trapping instruction (R215 to R217). -/
def State.freeze (s : State) (k : Nat) : State :=
  (s.modSlot k fun sl => { sl with frozen := true, phase := .ready }).yieldCore k

/-- R210 after the fault CSRs: freezing, the class 2 and 3 rule, or containment from CORE. -/
def State.trapFate (s : State) (k : Nat) (cause : BitVec 10) (addr : Word) : State :=
  let f := s.faultInfo k cause 0 true (s.slot k).pc addr
  let high := decide (2 ≤ (s.slot k).cls.toNat)
  if cause = 0x010#10 then s.contain f (levelsFrom scCore)
  else if cause = 0x020#10 ∨ (cause = 0x102#10 ∧ !high) then
    ((s.recordLevel f scCore 0 0).freeze k).faultNotice f scCore 0 true
  else if high then ((s.recordLevel f scCore 0 0).failActivation k).faultNotice f scCore 0 false
  else s.contain f (levelsFrom scCore)

/-- Takes a trap at slot `k` (R210): the fault CSRs, then an emulation routine, freezing or
containment. `emu` names the bindings that may replace a 0x001. -/
def State.takeTrap (s : State) (k : Nat) (cause : BitVec 10) (addr : Word) (emu : Option EmuKey) : State :=
  let sl := s.slot k
  let bound := if cause = 0x001#10 ∧ !bit sl.emu 0 then emu.bind (s.emuBinding sl) else none
  let charge := if cause = 0x210#10 then 0 else if bound.isSome then 2 else 1
  if sl.over charge then
    (s.modSlot k fun sl => sl.record 0x210#10 0).trapFate k 0x210#10 0
  else
    let cause := if cause = 0x001#10 ∧ bit sl.emu 0 then 0x010#10 else cause
    let s := s.modSlot k fun sl => sl.record cause addr
    match bound with
    | some b => s.modSlot k fun sl => sl.emulate b
    | none => (s.modSlot k fun sl => sl.charge charge).trapFate k cause addr

/-- Returns from an emulation routine (R230): the PC after the emulated instruction, EMU.ACT clear. -/
def Slot.eret (sl : Slot) : Slot :=
  { sl.leaveEmulation with pc := evenPc (sl.epc + (if bit sl.einst 0 then 4 else 2)) }

/-! ### The overflow ring and retirement (R129, R174, R226) -/

/-- An ordered mailbox receives a key that it has passed (R174): 0x201 at the receiver, with FPC and FINST
that no rule gives (log 23), and CORE's policy. -/
def State.keyPassed (s : State) (k : Nat) : State :=
  let pc := Config.unnamedPc s.tick
  let s := s.modSlot k fun sl =>
    { sl with fcause := fcauseWord 0 0 7 0 0x201, fpc := pc, finst := Config.unfetched s.tick, faddr := 0 }
  s.contain (s.faultInfo k 0x201#10 7 false pc 0) (levelsFrom scCore)

/-- Writes messages into a ring from entry `i` on. -/
def State.ringWrite (s : State) (c : Nat) (area : Word) (asid : BitVec 16) (i : Nat) : List Msg → State
  | [] => s
  | m :: ms =>
    let cap := s.areaLoad c area asid 0x028 4
    let base := BitVec.ofNat 64 (s.areaLoad c area asid 0x020 8)
    let s := match s.placeOf c asid (base + BitVec.ofNat 64 (64 * (i % cap))) with
      | some key => ((s.open key 64).eccClear key 64).store key m.bytes
      | none => s
    State.ringWrite s c area asid ((i + 1) % 2 ^ 32) ms

/-- Leaves these messages in a ring, as its last entries: OVFHEAD moves up to them. -/
def State.ringSet (s : State) (c : Nat) (area : Word) (asid : BitVec 16) (ms : List Msg) : State :=
  let head := (s.areaLoad c area asid 0x030 4 + 2 ^ 32 - ms.length) % 2 ^ 32
  (s.ringWrite c area asid head ms).areaStore c area asid 0x02C 4 head

/-- Judges the messages of a ring in arrival order under R174, from its first row: what stays in the ring, after
`kept`. A message of a kind that claims an entry has kept it. -/
def State.ringPass (k : Nat) (id : BitVec 32) (area : Word) (asid : BitVec 16) :
    State → List Msg → List Msg → State × List Msg
  | s, kept, [] => (s, kept)
  | s, kept, m :: ms =>
    let c := keyCore k
    if (s.slot k).status ≠ .live ∨ (s.slot k).ctxid ≠ id then (s, [])
    else
      let claimed := decide (entryOf m = .claimed)
      match (s.modSlot k fun sl => { sl with rings := [] }).judge c m claimed with
      | .accepted n entry => State.ringPass k id area asid (s.accept n m entry) kept ms
      | .ring a i => State.ringPass k id area asid (s.ringAppend c a i m) kept ms
      | .refused => State.ringPass k id area asid s (kept ++ [m]) ms
      | .keyPast n => State.ringPass k id area asid ((s.ringSet c area asid (kept ++ ms)).keyPassed n) kept ms
      | .discarded => State.ringPass k id area asid (if claimed then s.unclaim c else s) kept ms

/-- Drains one ring of a restored actor into its mailboxes (R226): the messages that R174 refuses stay. -/
def State.ringDrainOne (k : Nat) (s : State) (e : Word × BitVec 16) : State :=
  let id := (s.slot k).ctxid
  let msgs := s.ringMsgs (keyCore k) e.1 e.2
  let r := State.ringPass k id e.1 e.2 s [] msgs
  if (r.1.slot k).status ≠ .live ∨ (r.1.slot k).ctxid ≠ id then r.1
  else
    let s := if r.2.length = msgs.length then r.1 else r.1.ringSet (keyCore k) e.1 e.2 r.2
    if r.2 = [] then s.modSlot k fun sl => { sl with rings := sl.rings.filter fun x => x ≠ e } else s

/-- Drains the rings of a restored actor, the oldest first (R226). -/
def State.ringDrain (s : State) (k : Nat) : State := (s.slot k).rings.foldl (State.ringDrainOne k) s

/-- Retires the activation of slot `k` (R129): an exiting actor is removed (R191), and ring messages of a
restored actor are tried again (R226). -/
def State.retire (s : State) (k : Nat) : State :=
  let exiting := (s.slot k).exiting
  let s := s.endActivation k
  if exiting then s.removeActor k none else s.ringDrain k

/-! ### Running one instruction -/

/-- What the body of an instruction comes to. -/
inductive Act where
  | next (s : State)                     -- done; the PC moves to the next instruction
  | jump (s : State) (pc : BitVec 52)    -- done; the PC moves to a target
  | ends (s : State)                     -- the activation has ended, its charge included
  | wait (s : State) (w : Wait)          -- a blocking wait; the PC stays
  | trap (cause : BitVec 10) (addr : Word)
  | undef (feature : Nat)                -- 0x001 of a feature (R85)

/-- The decode-time conditions of a major (R65, R85, R95, R102): features, in order; whether it is
privileged; whether it is an engine major. -/
structure Need where
  feats  : List Nat := []
  priv   : Bool := false
  engine : Bool := false

/-- What an outcome of the instruction of slot `k` comes to. -/
def Act.outcome (k len cost : Nat) (s₀ : State) : Act → State
  | .next s => s.modSlot k fun sl => { sl.charge cost with pc := sl.pc + BitVec.ofNat 52 len }
  | .jump s pc => s.modSlot k fun sl => { sl.charge cost with pc := pc }
  | .ends s => s
  | .wait s w => (s.modSlot k fun sl => { sl with phase := .blocked w }).yieldCore k
  | .trap cause addr => (s₀.sawPoison (keyCore k) (s₀.slot k).asid cause addr).takeTrap k cause addr none
  | .undef f => s₀.takeTrap k 0x001#10 0 (some (2, f))

/-- Ends a step of the instruction of slot `k` with its outcome; the activation waits where an access waits. -/
def Act.finish (k len cost : Nat) (s₀ : State) (a : Act) : State := s₀.orWait k (a.outcome k len cost s₀)

/-- A trap that decode or the budget raises ends the step of slot `k`. -/
def State.trapStep (s : State) (k : Nat) (cause : BitVec 10) (emu : Option EmuKey) : Host.Outcome State Fault Refusal :=
  .next (s.orWait k (s.takeTrap k cause 0 emu))

/-- The value of a guard or predicate: p0 reads true (R58). -/
def Slot.pred (sl : Slot) (p : PredNo) : Bool := p = 0 || sl.p[p.toNat]'p.isLt

/-- Runs one instruction of the running activation: decode checks (R65), the guard (R58), the budget
(R184), the body, and its outcome (R105). -/
def State.run (s : State) (need : Need) (len cost : Nat) (g : PredNo) (body : Nat → Act) :
    Host.Outcome State Fault Refusal :=
  match s.cur with
  | none => .fault .noActivation
  | some k =>
    let sl := s.slot k
    match need.feats.find? fun f => !s.hasFeat f with
    | some f => s.trapStep k 0x001#10 (some (2, f))
    | none =>
      if (need.priv ∧ sl.cls.toNat < 2) ∨ (need.engine ∧ sl.cls = 1#2) then
        s.trapStep k 0x020#10 none
      else if !sl.pred g then
        if sl.over 1 then s.trapStep k 0x210#10 none
        else .next (Act.finish k len 1 s (.next s))
      else if sl.over cost then s.trapStep k 0x210#10 none
      else .next (Act.finish k len cost s (body k))

end Sys2Proof.Machine
end

