-- ==== Sys2Proof/Machine/Operands.lean ====
section
/-! DEFINITION. Operand forms: sources and destinations (R55 to R57), the 16-bit fields (R66), register
pairs (R151, R200), the loop-nest address (R101), and the arithmetic of the scalar majors (R107 to
R118). -/

namespace Sys2Proof.Machine

/-- Reads a source operand (R55, R56): s0 reads zero; i and c registers are sign-extended. -/
def Slot.read (sl : Slot) : Src → Word
  | .s n => if n = 0 then 0 else sl.s[n.toNat]'n.isLt
  | .q n => sl.q[n.toNat]'n.isLt
  | .a n => sl.a[n]
  | .i n => (sl.i[n.toNat]'n.isLt).signExtend 64
  | .c n => (sl.c[n.toNat]'n.isLt).signExtend 64
  | .last => sl.l

/-- Writes a register that a D specifier names, without L: s0 and 126 name none (R55). -/
def Slot.put (sl : Slot) (v : Word) : Dst → Slot
  | .s n => if n = 0 then sl else { sl with s := sl.s.set n.toNat v n.isLt }
  | .q n => { sl with q := sl.q.set n.toNat v n.isLt }
  | .last => sl

/-- Writes a value through a D specifier: the register it names, and L (R57). -/
def Slot.write (sl : Slot) (d : Dst) (v : Word) : Slot := { sl.put v d with l := v }

/-- A destination read as a source (R110, R115, R117, R152). -/
def dstSrc : Dst → Src
  | .s n => .s n
  | .q n => .q n
  | .last => .last

/-- A 4-bit field of a 16-bit form as a destination (R66): q0 to q7, s1 to s7, L. -/
def zDst (z : ZReg) : Dst :=
  if z.toNat < 8 then .q (z.setWidth 3)
  else if z = 15#4 then .last
  else .s (z.setWidth 6 - 7)

/-- A 4-bit field of a 16-bit form as a source (R66). -/
def zSrc (z : ZReg) : Src := dstSrc (zDst z)

/-- The second register of a pair (R151, R200, R201): s(V+1) or q(V−63). -/
def pairSrc : Src → Src
  | .s n => .s (n + 1)
  | .q n => .q (n + 1)
  | x => x

/-- A pair operand as a destination (R201). -/
def srcDst : Src → Dst
  | .s n => .s n
  | .q n => .q n
  | _ => .last

/-- The sum of one enabled coefficient into an address (R101). -/
def lnTerm (sl : Slot) (j : Fin 16) : Word :=
  if bit sl.lcmap (4 * j.val + 3) then
    (sl.c[j]).signExtend 64 * (sl.i[ix 4 (bits sl.lcmap (4 * j.val + 1) (4 * j.val))]).signExtend 64
  else 0

/-- The address of stream `g` from a base (R101). -/
def lnaddr (sl : Slot) (g : BitVec 2) (base : Word) : Word :=
  base + lnTerm sl (ix 16 (4 * g.toNat)) + lnTerm sl (ix 16 (4 * g.toNat + 1)) +
    lnTerm sl (ix 16 (4 * g.toNat + 2)) + lnTerm sl (ix 16 (4 * g.toNat + 3))

/-! ### Arithmetic (R107 to R118) -/

def mulHigh (x y : Word) : Word := (x.signExtend 128 * y.signExtend 128).extractLsb' 64 64
def divide (x y : Word) : Word := if y = 0 then BitVec.allOnes 64 else x.sdiv y
def remain (x y : Word) : Word := if y = 0 then x else x.srem y
def low6 (y : Word) : Nat := y.toNat % 64
def smin (x y : Word) : Word := if x.slt y then x else y
def smax (x y : Word) : Word := if x.slt y then y else x
def rotl (x : Word) (n : Nat) : Word := x.rotateLeft n
def rotr (x : Word) (n : Nat) : Word := x.rotateRight n

/-- The funnel shift right of R110. -/
def funnel (h lo : Word) (k : Nat) : Word := ((h ++ lo) >>> k).setWidth 64

/-- The width that F 0 and 1 of BEXT, and F 0 of BINS, take from V<13:8> (R116, R117). -/
def fieldWidth (v : Word) : Nat := if bits v 13 8 = 0 then 64 else bits v 13 8

/-- BEXT (R116): `w` bits of `x` from position `pos`. -/
def extract (x : Word) (pos w : Nat) (sign : Bool) : Word :=
  let t := (x >>> pos).toNat % 2 ^ w
  if sign ∧ 2 ^ (w - 1) ≤ t then BitVec.ofNat 64 (t + (2 ^ 64 - 2 ^ w)) else BitVec.ofNat 64 t

/-- BINS (R117): the low `w` bits of `x` into `h` at position `pos`. -/
def insert (h x : Word) (pos w : Nat) : Word :=
  let m : Word := BitVec.ofNat 64 ((2 ^ w - 1) * 2 ^ pos)
  (h &&& ~~~m) ||| ((x <<< pos) &&& m)

def popCount (x : Word) : Word := BitVec.ofNat 64 ((List.range 64).filter fun k => x.getLsbD k).length
def leadZeros (x : Word) : Word := BitVec.ofNat 64 (((List.range 64).takeWhile fun k => !x.getMsbD k).length)
def trailZeros (x : Word) : Word := BitVec.ofNat 64 (((List.range 64).takeWhile fun k => !x.getLsbD k).length)
def bitReverse (x : Word) : Word := x.reverse
def byteSwap (x : Word) : Word := BitVec.ofNat 64 (leNat (leBytes x.toNat 8).reverse)

/-- A signed displacement in halfwords from an address (R52). -/
def dispTarget {n : Nat} (pc : BitVec 52) (disp : BitVec n) : BitVec 52 :=
  pc + (disp.signExtend 52 <<< 1)

end Sys2Proof.Machine
end

