-- ==== Sys2Proof/Machine/Flags.lean ====
section
/-! DEFINITION. Predicates and flags: the conditions of CMP (R111), the truth tables of PLOG (R119),
writes of predicates (R59), and the numeric flags (R48). -/

namespace Sys2Proof.Machine

/-- Writes a predicate; a write to p0 is discarded (R59). -/
def Slot.setPred (sl : Slot) (p : PredNo) (v : Bool) : Slot :=
  if p = 0 then sl else { sl with p := sl.p.set p.toNat v p.isLt }

/-- The predicate file as GETC.prd reads it (R131). -/
def Slot.predWord (sl : Slot) : Word :=
  BitVec.ofNat 64 (((List.range 8).map fun k => (sl.pred (BitVec.ofNat 3 k)).toNat * 2 ^ k).sum)

/-- The 16 conditions of CMP (R111). -/
def cmpCond (c : Nat) (x y : Word) : Bool :=
  match c with
  | 0 => x = y
  | 1 => x ≠ y
  | 2 => x.slt y
  | 3 => !x.slt y
  | 4 => x.sle y
  | 5 => !x.sle y
  | 6 => x.ult y
  | 7 => !x.ult y
  | 8 => x.ule y
  | 9 => !x.ule y
  | 10 => x &&& y ≠ 0
  | 11 => x &&& y = 0
  | 12 => x &&& y = y
  | 13 => x &&& y ≠ y
  | 14 => x.getLsbD (low6 y)
  | _ => !x.getLsbD (low6 y)

/-- A two-input function by its truth table (R119): bit 2a + b of COND. -/
def plogTable (cond : BitVec 4) (a b : Bool) : Bool := cond.getLsbD (2 * a.toNat + b.toNat)

/-- The numeric flags (R48): NV, OF, UF, IX, SAT, WIDEN, PWOOB. -/
abbrev flNV : BitVec 7 := 0x01
abbrev flOF : BitVec 7 := 0x02
abbrev flUF : BitVec 7 := 0x04
abbrev flIX : BitVec 7 := 0x08
abbrev flSAT : BitVec 7 := 0x10
abbrev flWIDEN : BitVec 7 := 0x20
abbrev flPWOOB : BitVec 7 := 0x40

/-- Flags ORed into FLAGS (R50). -/
def Slot.raise (sl : Slot) (f : BitVec 7) : Slot := { sl with flags := sl.flags ||| f }

end Sys2Proof.Machine
end

