-- ==== Sys2Proof/Machine/Stacks.lean ====
section
/-! DEFINITION. The memory stacks: resolving a word (R358, R359), repairs, alerts and
retirement (R361 to R367), and performing an access at the owner of its address (R150 to R154). -/

namespace Sys2Proof.Machine

/-! ### Notices and retirement (R364 to R366) -/

/-- A stack notice about a channel (R364). -/
def State.channelNotice (s : State) (cause : BitVec 10) (kind : Nat) (pa chan seq : Nat) : State :=
  s.notice s.module.stkdst
    #v[fields [(cause.toNat, 0), (stackOf pa, 10), (chan, 13), (kind, 18)], BitVec.ofNat 64 pa,
       BitVec.ofNat 64 s.cycle, BitVec.ofNat 64 seq, 0, 0]

/-- A stack notice about an address (R364). -/
def State.stackNotice (s : State) (cause : BitVec 10) (kind : Nat) (pa seq : Nat) : State :=
  s.channelNotice cause kind pa (chanOf (pa / 8)) seq

/-- Retires the frame of an address (R365): the log entry, then the messages. -/
def State.retireFrame (s : State) (cause : BitVec 10) (kind : Nat) (pa : Nat) : State :=
  let m := s.module
  let frame := fields [(s.node, 48), (pa / 0x10000, 16)]
  let deadline := s.cycle + m.grace.toNat * 2 ^ 20
  let seq := m.rlogSeq
  let place := fields [(stackOf pa, 0), (chanOf (pa / 8), 3)]
  let full := decide (m.rlogCap = 0) || decide (m.rlogTail - m.rlogHead = m.rlogCap)
  let s :=
    if full then s
    else
      let key := s.own (m.rlogb.toNat + 32 * (m.rlogTail.toNat % m.rlogCap.toNat))
      ((s.open key 32).eccClear key 32).store key (leBytes frame.toNat 8 ++ leBytes deadline 8 ++ leBytes cause.toNat 2 ++ leBytes kind 1 ++
        leBytes place.toNat 1 ++ leBytes seq.toNat 4 ++ leBytes 0 8)
  let s := s.modModule fun m =>
    { m with
      rlogTail := if full then m.rlogTail else m.rlogTail + 1
      rlogOvf := m.rlogOvf || (full && decide (m.rlogCap ≠ 0))
      rlogSeq := seq + 1
      retired := m.retired ++ [⟨pa / 0x10000, deadline⟩] }
  let a3 := fields [(cause.toNat, 0), (kind, 16), (place.toNat, 19)]
  m.retdst.toList.foldl (fun s (e : Bool × BitVec 22) =>
    if e.1 then s.notice e.2 #v[frame, BitVec.ofNat 64 deadline, seq.setWidth 64, a3, 0, 0] else s) s

/-! ### Failures and their repair (R361) -/

/-- Enters a hold of a region of a stack. -/
def State.holdRegion (s : State) (st : Nat) (kind : HoldKind) (region ns pa : Nat) : State :=
  s.modStack st fun t => { t with holds := t.holds ++ [⟨kind, region, s.ns + ns, pa, s.tick⟩] }

/-- A bank has failed: a bank repair, or its words are served by step 3 (R361). -/
def State.bankFailed (s : State) (pa : Nat) : State :=
  let st := stackOf pa
  let bank := s.bankOf pa
  if (s.stack st).banks = 0 then
    (s.modStack st fun t => { t with bankOut := bank :: t.bankOut }).stackNotice 0x380#10 3 pa 0
  else
    (s.modStack st fun t => { t with banks := t.banks - 1 }).holdRegion st .bank bank (us 2000) pa

/-- A row has failed: a row repair, or its frame is retired and it stays in service; the fourth of a bank fails
the bank (R361). -/
def State.rowFailed (s : State) (pa : Nat) : State :=
  let st := stackOf pa
  let row := Config.dramRow (pa / 8)
  let bank := s.bankOf pa
  let fails := AMap.get 0 (s.stack st).rowFail bank + 1
  let s := s.modStack st fun t => { t with rowFail := t.rowFail.set bank fails, rowErr := t.rowErr.set row 0 }
  let s :=
    if (s.stack st).rows = 0 then
      let seq := s.module.rlogSeq.toNat
      ((s.modStack st fun t => { t with rowsBad := (bank, row) :: t.rowsBad }).retireFrame 0x380#10 1 pa).stackNotice 0x380#10 1 pa seq
    else (s.modStack st fun t => { t with rows := t.rows - 1 }).holdRegion st .row row (us 40) pa
  if fails = 4 then s.bankFailed pa else s

/-- The scrub period that a time lies in (R360, R363). -/
def Stack.period (t : Stack) (ns : Nat) : Nat := ns / (Nat.max 1 t.scrubp.toNat * 3600000000000)

/-- The counts of errors by row in this scrub period. -/
def Stack.errors (t : Stack) (ns : Nat) : AMap Nat := if t.errPeriod = t.period ns then t.rowErr else []

/-- Whether a row has failed: its repair is on its way, or it stays in service, so that it fails no second time. -/
def Stack.rowDown (t : Stack) (bank row : Nat) : Bool :=
  t.rowsBad.contains (bank, row) || t.holds.any fun h => decide (h.kind = .row) && decide (h.region = row)

/-- A corrected or rebuilt word counts against its row, which fails at the 16th of a scrub period (R361). -/
def State.rowError (s : State) (pa : Nat) : State :=
  let st := stackOf pa
  let row := Config.dramRow (pa / 8)
  if (s.stack st).rowDown (s.bankOf pa) row then s
  else
    let n := AMap.get 0 ((s.stack st).errors s.ns) row + 1
    let s := s.modStack st fun t => { t with rowErr := (t.errors s.ns).set row n, errPeriod := t.period s.ns }
    if n = 16 then s.rowFailed pa else s

/-! ### Resolving a word (R358, R359) -/

/-- Resolves one word of the own module's stacks, by the first step of R358 that succeeds. -/
def State.resolveWord (s : State) (w : Nat) : State :=
  let st := stackOf (8 * w)
  let clear (t : Stack) : Stack := { t with ecc := AMap.erase t.ecc w }
  if s.poison.contains (s.own (8 * w) / 8) then s
  else if s.wordOut w then
    if s.rebuildable w then
      (s.modStack st fun t => { clear t with rebuilt := sat 16 t.rebuilt }).rowError (8 * w)
    else
      s.markLost w
  else if (s.stack st).eccAt w = some .correctable then
    (s.modStack st fun t => { clear t with corr := sat 24 t.corr }).rowError (8 * w)
  else s

/-- Whether a stack has nothing to resolve. -/
def Stack.sound (t : Stack) : Bool :=
  decide (t.ecc = []) && decide (t.failed = 0) && decide (t.rebuild = 0) && decide (t.bankOut = [])

/-- Resolves every word of a read (R358). -/
def State.resolve (s : State) (key n : Nat) : State :=
  if !s.inStack key ∨ (s.stack (stackOf (paOf key))).sound then s
  else (wordsOf (paOf key) n).foldl State.resolveWord s

/-- Whether nothing in the stacks is in error, and no access waits. -/
def State.calm (s : State) : Bool := !s.mayWait && s.hbm.toList.all Stack.sound

/-- A walk reads its words (R134): a held one makes the step wait, each opens its row and is resolved (R358, R367). -/
def State.resolveTables (s : State) (c : Nat) (asid : BitVec 16) (va : Nat) : State :=
  (s.tableWords c asid va).foldl (fun s key => (s.open key 8).resolve key 8) s

/-- Enters the translation of an access into the core's TLB, where a walk found it (R134). -/
def State.fillTlb (s : State) (c : Nat) (x : Xlate) : State :=
  match x.fill with
  | none => s
  | some e => (s.resolveTables c e.asid (e.page * 2 ^ e.bits)).enterTlb c x

/-- A read with ECC and poison (R142, R358, R359). -/
def State.readOp (s : State) (key n : Nat) (tol nan : Bool) : Except (BitVec 10) (State × List Byte) :=
  (s.resolve key n).readMem key n tol nan

/-! ### Activation alerts (R367) -/

/-- The refreshes that a bank has postponed after an activation alert: those postponed to the limit are issued
first (R367). -/
def Stack.afterAlert (t : Stack) (st bank : Nat) : AMap Nat :=
  if Config.postponeLimit st ≤ AMap.get 0 t.defer bank then AMap.erase t.defer bank else t.defer

/-- The alert of one row: it holds the row's bank, and the row counts afresh. During a repair of the bank the alert is
part of that repair. -/
def Stack.alert (t : Stack) (st ns tick : Nat) (row : Nat) : Stack :=
  let bank := row % 2 ^ 16
  let repair := t.holds.any fun h => decide (h.kind = .bank) && decide (h.region = bank)
  { t with
    acts := AMap.erase t.acts row
    defer := t.afterAlert st bank
    holds := if repair then t.holds else t.holds ++ [⟨.alert, bank, ns + us 4, 0, tick⟩] }

/-- The rows of a stack that have reached the activation threshold. -/
def Stack.hotRows (t : Stack) (st : Nat) : List Nat :=
  (t.acts.filter fun e => decide (Config.activations st ≤ e.2)).map Prod.fst

/-- Every row that has reached the threshold raises its alert (R367). -/
def State.raiseAlerts (s : State) : State :=
  { s with hbm := s.hbm.mapFinIdx fun st t _ => (t.hotRows st).foldl (fun t row => t.alert st s.ns s.tick row) t }

/-- An error befalls a word of a stack, or none (R358): which one, and when, is free. -/
def State.upset (s : State) : State :=
  match Config.upset s.tick with
  | none => s
  | some (w, lost) =>
    if hbmTop ≤ 8 * w then s
    else s.modStack (stackOf (8 * w)) fun t => { t with ecc := t.ecc.set w (if lost then .lost else .correctable) }

/-! ### Performing an access (R150 to R154, R383) -/

/-- The functions of AMO (R150). -/
def amoOp (f : BitVec 3) (old y : Word) : Word :=
  match f.toNat with
  | 0 => old + y
  | 1 => old &&& y
  | 2 => old ||| y
  | 3 => old ^^^ y
  | 4 => smin old y
  | 5 => smax old y
  | _ => y

/-- A store at the owner. -/
def State.storeOp (s : State) (key n v : Nat) : State := (s.eccClear key n).storeLE key n v

/-- The unit status of a compute-capable page's bank set (R383). -/
def State.unitStatus (s : State) (key : Nat) : Nat :=
  let pa := paOf key
  let t := s.stack (stackOf pa)
  let set := bankSet pa
  let queue := AMap.get [] t.queues set
  let busy := (List.range 32).filter fun b => queue.any fun q => q.taken && q.left.contains b
  let held (p : HoldKind → Bool) := t.holds.any fun h => p h.kind && decide (h.region / 32 = set)
  (busy.map fun b => 2 ^ b).sum + Nat.min (queue.filter fun q => bits q.cmd.w[0] 7 0 = 0x59).length 0xFFFF * 2 ^ 32 +
    (held fun k => k = .bank).toNat * 2 ^ 48 + (held fun k => k = .alert).toNat * 2 ^ 49

/-- Performs an operation at the owner of its address: the value, or a cause. -/
def State.performOp (s : State) (key : Nat) (op : MemOp) (tol nan : Bool) :
    Except (BitVec 10) (State × Nat) :=
  match op with
  | .read n => (s.readOp key n tol nan).map fun r => (r.1, leNat r.2)
  | .write n v => .ok (s.storeOp key n v, 0)
  | .amo f y => (s.readOp key 8 tol nan).map fun r =>
      (r.1.storeOp key 8 (amoOp f (BitVec.ofNat 64 (leNat r.2)) y).toNat, leNat r.2)
  | .a96 y => (s.readOp key 12 tol nan).map fun r =>
      (r.1.storeOp key 12 ((leNat r.2 + y.toNat) % 2 ^ 96), leNat r.2 % 2 ^ 64)
  | .cas n e v => (s.readOp key n tol nan).map fun r =>
      (if leNat r.2 = e.toNat % 2 ^ (8 * n) then r.1.storeOp key n v.toNat else r.1, leNat r.2)
  | .claim n => (s.readOp key 24 tol nan).map fun r =>
      let w := BitVec.ofNat 64 (leNat (r.2.take 8))
      let rd := BitVec.ofNat 64 (leNat ((r.2.drop 8).take 8))
      let c := BitVec.ofNat 64 (leNat ((r.2.drop 16).take 8))
      if n = 0 then (r.1, w.toNat)
      else if w - rd + n ≤ c then (r.1.storeOp key 8 (w + n).toNat, w.toNat)
      else (r.1, 2 ^ 64 - 1)
  | .rows => .ok (s, (AMap.get 0#32 (s.stack (stackOf (paOf key))).rowcnt (paOf key / 2 ^ 21)).toNat)
  | .unit => .ok (s, s.unitStatus key)

/-- Performs an operation at HBM. It is judged when it arrives: from its deadline on a retired frame refuses an access
to its bytes, but not one that has `arrived` before and waited (R366). -/
def State.performHbm (s : State) (key : Nat) (op : MemOp) (tol nan arrived : Bool) :
    Except (BitVec 10) (State × Nat) :=
  if op.size = 0 then s.performOp key op tol nan
  else if !arrived && s.retiredAt key then .error 0x382#10 else (s.openRows key op.size).performOp key op tol nan

end Sys2Proof.Machine
end

