-- ==== Sys2Proof/Machine/Mmio.lean ====
section
/-! DEFINITION. The memory-mapped registers (R146, R148, R173, R213, R220, R250, R324, R363, R393 to
R401) and the doorbell of a copy queue (R310, R317). -/

namespace Sys2Proof.Machine

/-- Reads a field of an engine's word-sized memory operand through an address space, as a unit does
that reads by translation: the key, or a cause (R134 to R138). -/
def State.unitPlace (s : State) (c : Nat) (asid : BitVec 16) (cls : BitVec 2) (kind : AccKind) (va : Word) :
    Except (BitVec 10) Nat :=
  (s.translate c asid cls kind va).map Xlate.key

/-- Reads the head slot of a bound copy queue again: it is ready when SEQ equals RDIDX (R310). -/
def State.pollQueue (s : State) (cl q : Nat) : State :=
  let cu := s.cluster cl
  let b := cu.queues[ix 64 q]
  if !b.bound then s
  else
    let va := b.ring + BitVec.ofNat 64 (64 * (b.rdidx.toNat % b.cap))
    match s.unitPlace b.core b.asid b.cls .load va with
    | .error _ => s
    | .ok key =>
      if s.retiredAt key ∨ s.unreachable key then s
      else
      let s := (s.open key 8).resolve key 8
      let seq := s.loadLE (key + 4) 4
      let b' := { b with ready := decide (seq = b.rdidx.toNat % 2 ^ 32) }
      s.modCluster cl fun cu => { cu with queues := cu.queues.set (ix 64 q) b' }

/-- ECNT of a stack (R363). -/
def Stack.ecnt (t : Stack) : Word :=
  fields [(t.corr.toNat, 40), (t.rebuilt.toNat, 24), (t.uncorr.toNat, 8), (t.drop.toNat, 0)]

/-- Reads a register of a stack's block (R363). -/
def Stack.readReg (t : Stack) (off : Nat) : Word :=
  match off with
  | 0x00 => fields [(t.scrubp.toNat, 13), (t.ccn.toNat, 0)]
  | 0x08 => fields [(t.rows.toNat, 32), (t.banks.toNat, 16), (t.lanes.toNat, 0)]
  | 0x10 => t.subcnt.setWidth 64
  | 0x18 => t.ecnt
  | 0x20 => fields [(t.rebuild.toNat, 32), (t.failed.toNat, 0)]
  | _ => 0

/-- Writes a register of a stack's block (R363): the RW fields only. -/
def Stack.writeReg (t : Stack) (off : Nat) (v : Word) : Stack :=
  match off with
  | 0x00 => { t with scrubp := v.extractLsb' 13 8 }
  | 0x10 => { t with subcnt := v.setWidth 32 }
  | 0x18 => { t with corr := v.extractLsb' 40 24, rebuilt := v.extractLsb' 24 16,
                     uncorr := v.extractLsb' 8 16, drop := v.setWidth 8 }
  | _ => t

/-- Word `i` of a launch queue descriptor (R395). -/
def LaunchQueue.word (q : LaunchQueue) : Nat → Word
  | 0 => q.cb
  | 1 => q.ring
  | 2 => q.cw
  | _ => fields [(q.asid.toNat, 0), (q.colour.toNat, 16)]

def LaunchQueue.setWord (q : LaunchQueue) (v : Word) : Nat → LaunchQueue
  | 0 => { q with cb := v, frames := [] }
  | 1 => { q with ring := v, frames := [] }
  | 2 => { q with cw := v }
  | _ => { q with asid := v.setWidth 16, colour := (v.extractLsb' 16 8) &&& 0x3F#8 }

/-- PWRSTAT (R401). -/
def SDie.pwrstat (d : SDie) : Word :=
  fields [(d.throt.toNat, 32), (d.mhz.toNat, 2), (d.therm.toNat, 1), (d.pwr.toNat, 0)]

/-- Words of a colour table entry (R220). -/
def Colour.word0 (c : Colour) : Word := fields [(c.strm.toNat, 63), (bits c.restart 51 6, 6)]
def Colour.word1 (c : Colour) : Word :=
  fields [(c.ckasid.toNat, 33), (c.preempting.toNat, 32), (c.epoch.toNat, 0)]

/-- Reads a module register; one that no rule names reads zero (R4, R5). -/
def State.moduleRead (s : State) (o : Nat) : Word :=
  let m := s.module
  if o = 0 then m.policy.setWidth 64
  else if 0x100 ≤ o ∧ o < 0x120 then (s.die ((o - 0x100) / 8)).policy.setWidth 64
  else if 0x200 ≤ o ∧ o < 0x280 then (s.cluster ((o - 0x200) / 8)).policy.setWidth 64
  else if o = 0x800 then s.sdie.bootstat.setWidth 64
  else if 0x900 ≤ o ∧ o < 0xA00 then Config.identityKey o
  else if o = 0xA00 then s.sdie.pwrstat
  else if 0x1000 ≤ o ∧ o < 0x1400 then
    let c := m.colours[ix 64 ((o - 0x1000) / 16)]
    if o % 16 < 8 then c.word0 else c.word1
  else if o = 0x2000 then m.gtb
  else if 0x3000 ≤ o ∧ o < 0x3800 then
    ((s.die ((o - 0x3000) / 0x200)).lqs[ix 16 (o / 32)]).word (o / 8 % 4)
  else if 0x4000 ≤ o ∧ o < 0x4800 then (s.stack ((o - 0x4000) / 0x100)).readReg (o % 0x100)
  else if o = 0x4800 then m.rlogb
  else if o = 0x4808 then fields [(m.rlogOvf.toNat, 63), (m.rlogCap.toNat, 32), (m.rlogHead.toNat, 16),
    (m.rlogTail.toNat, 0)]
  else if o = 0x4810 then m.grace.setWidth 64
  else if o = 0x4818 then m.stkdst.setWidth 64
  else if 0x4880 ≤ o ∧ o < 0x4900 then
    let e := m.retdst[ix 16 ((o - 0x4880) / 8)]
    fields [(e.1.toNat, 63), (e.2.toNat, 0)]
  else if o = 0x4F00 then s.sdie.evtcfg.setWidth 64
  else if 0x5000 ≤ o ∧ o < 0x7000 then AMap.get 0 s.sdie.evtpg ((o - 0x5000) / 8)
  else if 0x1000000 ≤ o ∧ o < 0x1040000 then
    (AMap.get 0#512 s.sdie.flow ((o - 0x1000000) / 64)).extractLsb' (o % 64 * 8) 64
  else 0

/-- Writes a module register (R4, R5). A register that no rule names ignores the write. -/
def State.moduleWrite (s : State) (o : Nat) (v : Word) : State :=
  if o = 0 then s.modModule fun m => { m with policy := v.setWidth 12 }
  else if 0x100 ≤ o ∧ o < 0x120 then s.modDie ((o - 0x100) / 8) fun d => { d with policy := v.setWidth 12 }
  else if 0x200 ≤ o ∧ o < 0x280 then
    s.modCluster ((o - 0x200) / 8) fun d => { d with policy := v.setWidth 24 }
  else if 0x1000 ≤ o ∧ o < 0x1400 then
    s.modColour (BitVec.ofNat 6 ((o - 0x1000) / 16)) fun c =>
      if o % 16 < 8 then { c with strm := bit v 63, restart := BitVec.ofNat 64 (bits v 51 6 * 64) }
      else { c with epoch := v.setWidth 32 }
  else if o = 0x2000 then s.modModule fun m => { m with gtb := BitVec.ofNat 64 (bits v 47 12 * 4096) }
  else if 0x3000 ≤ o ∧ o < 0x3800 then
    s.modDie ((o - 0x3000) / 0x200) fun d =>
      { d with lqs := d.lqs.set (ix 16 (o / 32)) ((d.lqs[ix 16 (o / 32)]).setWord v (o / 8 % 4)) }
  else if 0x4000 ≤ o ∧ o < 0x4800 then s.modStack ((o - 0x4000) / 0x100) fun t => t.writeReg (o % 0x100) v
  else if o = 0x4800 then s.modModule fun m => { m with rlogb := BitVec.ofNat 64 (bits v 47 5 * 32) }
  else if o = 0x4808 then
    s.modModule fun m => { m with rlogOvf := m.rlogOvf && !bit v 63, rlogCap := v.extractLsb' 32 16,
                                  rlogHead := v.extractLsb' 16 16 }
  else if o = 0x4810 then s.modModule fun m => { m with grace := v.setWidth 32 }
  else if o = 0x4818 then s.modModule fun m => { m with stkdst := v.setWidth 22 }
  else if 0x4880 ≤ o ∧ o < 0x4900 then
    s.modModule fun m => { m with retdst := m.retdst.set (ix 16 ((o - 0x4880) / 8)) (bit v 63, v.setWidth 22) }
  else if o = 0x4F00 then s.modSDie fun d => { d with evtcfg := v.setWidth 16 }
  else if 0x5000 ≤ o ∧ o < 0x7000 then s.modSDie fun d => { d with evtpg := d.evtpg.set ((o - 0x5000) / 8) v }
  else if 0x10000 ≤ o ∧ o < 0x20000 ∧ o % 0x1000 < 0x200 then s.pollQueue ((o - 0x10000) / 0x1000) (o % 0x1000 / 8)
  else if 0x1000000 ≤ o ∧ o < 0x1040000 then
    s.modSDie fun d =>
      let n := (o - 0x1000000) / 64
      let old := AMap.get 0#512 d.flow n
      let sh := o % 64 * 8
      { d with flow := d.flow.set n ((old &&& ~~~((BitVec.allOnes 64).setWidth 512 <<< sh)) |||
          (v.setWidth 512 <<< sh)) }
  else s

/-- Reads a register of a core's MMIO page at window offset `o` (R148, R173, R250). -/
def State.coreRead (s : State) (c o : Nat) : Word :=
  if o < 0xF0800 then
    if o % 0x100 < 0x80 then
      let e := (s.slot (slotKey c ((o - 0xF0000) / 0x100))).pw[ix 8 (o % 0x100 / 16)]
      if o % 16 < 8 then e.1 else e.2
    else 0
  else if o < 0xF1000 then (s.core c).vect[ix 256 ((o - 0xF0800) / 8)]
  else if o < 0xF1080 then ((s.core c).fown[ix 16 ((o - 0xF1000) / 8)]).setWidth 64
  else 0

/-- The window descriptor word that a write leaves (R148). -/
def pwWord (low : Bool) (v : Word) : Word :=
  if low then fields [((bit v 63).toNat, 63), (bits v 51 3 * 8, 0)] else fields [(bits v 31 0, 0)]

/-- The vector entry that a write leaves (R173): EVC is read-only, <54:52> and HADDR<0> read zero. -/
def vectWord (old v : Word) : Word :=
  fields [(bits v 63 56, 56), ((bit old 55).toNat, 55), (bits v 51 1 * 2, 0)]

/-- Writes a register of a core's MMIO page. -/
def State.coreWrite (s : State) (c o : Nat) (v : Word) : State :=
  if o < 0xF0800 then
    if o % 0x100 < 0x80 then
      s.modSlot (slotKey c ((o - 0xF0000) / 0x100)) fun sl =>
        let i := ix 8 (o % 0x100 / 16)
        let e := sl.pw[i]
        { sl with pw := sl.pw.set i (if o % 16 < 8 then (pwWord true v, e.2) else (e.1, pwWord false v)) }
    else s
  else if o < 0xF1000 then
    (s.modCore c fun co =>
      let i := ix 256 ((o - 0xF0800) / 8)
      { co with vect := co.vect.set i (vectWord co.vect[i] v) }).refreshCore c
  else if o < 0xF1080 then
    s.modCore c fun co => { co with fown := co.fown.set (ix 16 ((o - 0xF1000) / 8)) (v.setWidth 18) }
  else s

/-- Reads an 8-byte register at a physical address of an MMIO page. -/
def State.mmio8 (s : State) (pa : Nat) : Word :=
  match windowCore pa with
  | some c => s.coreRead c (windowOff pa / 8 * 8)
  | none => s.moduleRead ((pa - 0xFF00000000) / 8 * 8)

/-- Reads `n` bytes of a register, 4 or 8 (R146). -/
def State.mmioRead (s : State) (pa n : Nat) : Nat := (s.mmio8 pa).toNat / 2 ^ (8 * (pa % 8)) % 2 ^ (8 * n)

/-- Writes `n` bytes of a register, 4 or 8 (R146): the other bytes are written as they read. -/
def State.mmioWrite (s : State) (pa n v : Nat) : State :=
  let old := (s.mmio8 pa).toNat
  let sh := 2 ^ (8 * (pa % 8))
  let w := BitVec.ofNat 64 (if n = 8 then v else
    old - old / sh % 2 ^ (8 * n) * sh + v % 2 ^ (8 * n) * sh)
  match windowCore pa with
  | some c => s.coreWrite c (windowOff pa / 8 * 8) w
  | none => s.moduleWrite ((pa - 0xFF00000000) / 8 * 8) w

end Sys2Proof.Machine
end

