-- ==== Sys2Proof/Machine/Requests.lean ====
section
/-! DEFINITION. What a memory instruction does with a checked address (R141, R143 to R149): accesses that
complete in the pipeline, requests that travel to the owner of the address, posted stores, and the post
buffer. -/

namespace Sys2Proof.Machine

/-- The value that a load of `n` bytes writes (R143). -/
def extended (v n : Nat) (sx : Bool) : Word := extract (BitVec.ofNat 64 v) 0 (8 * n) sx

/-- Eight times the bytes of a handle, as its 256 bits (R147). -/
def handleOf (v : Nat) : BitVec 256 := BitVec.ofNat 256 v

/-- What the answer of an access writes (R143, R147, R149 to R153). -/
def Slot.land (sl : Slot) (v : Nat) : Cont → Slot
  | .load d n sx => sl.write d (extended v n sx)
  | .handle t => { sl with t := sl.t.set t.toNat (handleOf v) t.isLt }
  | .window d n sx oob => (sl.write d (extended v n sx)).raise (if oob then flPWOOB else 0)
  | .value d => sl.write d (BitVec.ofNat 64 v)
  | .store => sl

/-- A request of slot `k` for a checked address. -/
def State.requestOf (s : State) (k : Nat) (x : Xlate) (va : Word) (op : MemOp) (cont : Option Cont)
    (len cost : Nat) : Request :=
  ⟨s.nextId, (s.slot k).asid, keyCore k, keySlot k, (s.slot k).ctxid, x.key, va, op, x.tol, x.nan, cont, len, cost, false⟩

/-- Sends a request whose answer the activation waits for (R141). -/
def State.ask (s : State) (k : Nat) (x : Xlate) (va : Word) (op : MemOp) (cont : Cont)
    (len cost : Nat) : Act :=
  .wait (s.bump.modNet fun n => { n with reqs := n.reqs ++ [s.requestOf k x va op (some cont) len cost] })
    (.access s.nextId)

/-- Posts a store to HBM (R141). -/
def State.postStore (s : State) (k : Nat) (x : Xlate) (va : Word) (n v : Nat) : State :=
  s.bump.modNet fun q => { q with reqs := q.reqs ++ [s.requestOf k x va (.write n v) none 0 0] }

/-- Whether an address lies in the window of slot `k`'s own core. -/
def ownWindow (k : Nat) (x : Xlate) : Bool := windowCore x.pa = some (keyCore k)

/-- Whether what an access writes is that of a load, LD, LDN or LDX (R143, R144). -/
def Cont.loads : Cont → Bool
  | .load _ _ _ => true
  | _ => false

/-- An access of slot `k` to its own core's storage, performed in the pipeline (R141). -/
def State.inPipe (s : State) (k : Nat) (x : Xlate) (va : Word) (op : MemOp) (cont : Cont) : Act :=
  match s.performOp x.key op false false with
  | .error e => .trap e va
  | .ok (s, v) => .next (s.modSlot k fun sl => sl.land v cont)

/-- A read of slot `k`: its checks, then the access where its target has it performed. A load from the own
core's storage completes in the pipeline; every other one waits for its answer, a memory-mapped register's and
those of LDH and PWLD too (R141). -/
def State.readAct (s : State) (k : Nat) (r : Reach) (va : Word) (n align : Nat) (cont : Cont)
    (len cost : Nat) : Act :=
  match s.check (keyCore k) (s.slot k).asid (s.slot k).cls .load r va n align with
  | .error e => .trap e va
  | .ok x =>
    let s := s.fillTlb (keyCore k) x
    if ownWindow k x ∧ x.tt ≠ 5 ∧ cont.loads then s.inPipe k x va (.read n) cont
    else s.ask k x va (.read n) cont len cost

/-- An atomic of slot `k` (R141, R150 to R154): wherever it is performed, the activation waits for its answer. -/
def State.atomicAct (s : State) (k : Nat) (va : Word) (align : Nat) (op : MemOp) (d : Dst) : Act :=
  match s.check (keyCore k) (s.slot k).asid (s.slot k).cls .atomic .atomic va op.size align with
  | .error e => .trap e va
  | .ok x =>
    (s.fillTlb (keyCore k) x).ask k x va op (.value d) 4 2

/-! ### Performing an access at the owner of its address (R154, R158) -/

/-- An access to scratchpad at its bank: the bank traps one that conflicts with a guard as it is performed, the own
core's too (R158). -/
def State.performBank (s : State) (key : Nat) (op : MemOp) : Except (BitVec 10) (State × Nat) :=
  if s.bankGuarded key op.size op.writes then .error 0x108#10
  else s.performOp key op false false

/-- Whether a key is that of a memory-mapped register (R136): a core's page or the module's. -/
def isRegister (key : Nat) : Bool :=
  match windowCore (paOf key) with
  | some _ => decide (0xF0000 ≤ windowOff (paOf key))
  | none => decide (0xFF00000000 ≤ paOf key)

/-- An access to a memory-mapped register at its unit (R146). -/
def State.performRegister (s : State) (key : Nat) : MemOp → State × Nat
  | .read n => (s, s.mmioRead (paOf key) n)
  | .write n v => (s.mmioWrite (paOf key) n v, 0)
  | _ => (s, 0)

/-- An access at the owner of its address, where nothing makes it wait. -/
def State.performAt (s : State) (key : Nat) (op : MemOp) (tol nan arrived : Bool) : Except (BitVec 10) (State × Nat) :=
  if isRegister key then .ok (s.performRegister key op)
  else if (windowCore (paOf key)).isSome then s.performBank key op
  else s.performHbm key op tol nan arrived

/-- An 8-byte ordinary load in an address space, as the launch scheduler and the instructions that read
records make it (R190, R191, R195). -/
def State.ordinaryWord (s : State) (c : Nat) (asid : BitVec 16) (cls : BitVec 2) (va : Word) :
    Except (BitVec 10) (State × Word) :=
  match s.check c asid cls .load .load va 8 8 with
  | .error e => .error e
  | .ok x =>
    (((s.fillTlb c x).touch x.key 8).performAt x.key (.read 8) x.tol x.nan false).map fun r => (r.1, BitVec.ofNat 64 r.2)

/-- `n` words read by ordinary loads; a failure carries its address. -/
def State.ordinaryWords (s : State) (c : Nat) (asid : BitVec 16) (cls : BitVec 2) (va : Word) :
    Nat → Except (BitVec 10 × Word) (State × List Word)
  | 0 => .ok (s, [])
  | n + 1 =>
    match s.ordinaryWord c asid cls va with
    | .error e => .error (e, va)
    | .ok (s, w) => (State.ordinaryWords s c asid cls (va + 8) n).map fun r => (r.1, w :: r.2)

/-! ### The post buffer (R14, R145, R172) -/

/-- Replaces bits `hi` down to `lo` of a word. -/
def setField (w : Word) (hi lo : Nat) (v : Nat) : Word :=
  BitVec.ofNat 64 (w.toNat - bits w hi lo * 2 ^ lo + v % 2 ^ (hi + 1 - lo) * 2 ^ lo)

/-- The inbox that a line of an engine page names (R14). -/
def inboxOf (c off : Nat) : Option Inbox :=
  if off / 64 = 0xE0000 / 64 then some (.mxu c)
  else if off / 64 = 0xE0040 / 64 then some (.vector c)
  else if off / 64 = 0xE0100 / 64 then some (.runner (dieOf c))
  else none

/-- ASID and PRIV as the network interface fills them (R248, R276, R326). -/
def stamp (inbox : Inbox) (asid : BitVec 16) (priv : Bool) (w : Vector Word 8) : Vector Word 8 :=
  match inbox with
  | .mxu _ => w.set 7 (setField (setField w[7] 55 40 asid.toNat) 56 56 priv.toNat)
  | .vector _ => w.set 0 (setField (setField w[0] 43 28 asid.toNat) 19 19 priv.toNat)
  | .runner _ => w.set 0 (setField (setField w[0] 41 26 asid.toNat) 25 25 priv.toNat)

/-- Who issues: the core, the context, and the instruction (R211). -/
def State.issuer (s : State) (k : Nat) : Issuer :=
  ⟨keyCore k, (s.slot k).ctxid, (s.slot k).pc, (s.slot k).inst⟩

/-- Sends the message that a full post buffer forms for mailbox `mb` of a core (R170, R172). -/
def State.postMessage (s : State) (k : Nat) (dst mb id : Nat) (va : Word) (w : Vector Word 8) : State :=
  let sl := s.slot k
  s.sendVia (some ⟨id, sl.asid, va⟩) (keyCore k)
    (s.header 0 (keyCore k) (keySlot k).val sl.cls.toNat sl.jobcol.toNat false false mb (bits w[0] 7 0))
    0 (w[1].setWidth 32) #v[w[2], w[3], w[4], w[5], w[6], w[7]] dst sl.ctxid (.post id) false

/-- Sends the command that a full post buffer forms to an engine inbox. -/
def State.postCommand (s : State) (k : Nat) (inbox : Inbox) (id : Nat) (va : Word) (w : Vector Word 8) : State :=
  let p : Post := ⟨id, inbox, w, some (s.issuer k), 0, s.ns, none, some ⟨id, (s.slot k).asid, va⟩⟩
  s.modNet fun n => { n with posts := n.posts ++ [p] }

/-- Whether a posted command, its ASID and PRIV filled, counts on bead CP of its poster (R91, R326): a Runner command
with RKIND 0 that its inbox does not refuse. The other inboxes refuse RKIND 0 (log 96). -/
def postBead (inbox : Inbox) (w : Vector Word 8) : Bool :=
  match inbox with
  | .runner _ => bit w[0] 25 && decide (bits w[0] 15 14 = 0)
  | _ => false

/-- A bead counter one higher (R91). -/
def Slot.beadUp (sl : Slot) (b : Fin 4) : Slot := { sl with beads := sl.beads.set b (sl.beads[b] + 1) }

/-- Posts the command of a full post buffer, its ASID and PRIV filled: it waits while the counter that it takes
stands at 63 (R91, R145). -/
def State.postInbox (s : State) (k : Nat) (inbox : Inbox) (va : Word) (w : Vector Word 8) (len cost : Nat) : Act :=
  let sl := s.slot k
  let w := stamp inbox sl.asid (decide (2 ≤ sl.cls.toNat)) w
  if postBead inbox w ∧ sl.beads[2] = 63 then .wait s (.beadRoom 2)
  else
    let id := s.nextId
    let s := (s.release k).bump
    let s := if postBead inbox w then s.modSlot k fun sl => sl.beadUp 2 else s
    .wait (s.postCommand k inbox id va w) (.post id va len cost)

/-- The post buffer after a store of a word (R145): another line starts afresh. -/
def Slot.gather (sl : Slot) (line : Nat) (i : Fin 8) (v : Word) : Vector Word 8 :=
  (if sl.postLine = some line then sl.postBuf else .replicate 8 0).set i v

/-- A store to a mailbox page (R145); its address is aligned (log 92). -/
def State.mboxStore (s : State) (k : Nat) (x : Xlate) (va v : Word) (len cost : Nat) : Act :=
  let off := windowOff x.pa
  let c := (windowCore x.pa).getD 0
  let isMail := decide (0xD0000 ≤ off) && decide (off < 0xD0100)
  if !isMail ∧ (inboxOf c off).isNone then .trap 0x106#10 va
  else
    let i := ix 8 (off / 8)
    let w := (s.slot k).gather (x.key / 64) i v
    if i ≠ 7 then .next (s.modSlot k fun sl => { sl with postLine := some (x.key / 64), postBuf := w })
    else
      match inboxOf c off with
      | some inbox => s.postInbox k inbox va w len cost
      | none =>
        let id := s.nextId
        .wait (((s.release k).bump).postMessage k c ((off - 0xD0000) / 64) id va w) (.post id va len cost)

/-- A store of slot `k`: its checks, then the access where its target has it performed (R141, R143,
R145, R146, R165). -/
def State.storeAct (s : State) (k : Nat) (r : Reach) (va : Word) (n align v len cost : Nat) : Act :=
  match s.check (keyCore k) (s.slot k).asid (s.slot k).cls .store r va n align with
  | .error e => .trap e va
  | .ok x =>
    let s := s.fillTlb (keyCore k) x
    if x.tt = 0 then
      if x.prop = 2 then s.ask k x va (.write n v) .store len cost else .next (s.postStore k x va n v)
    else if x.tt = 4 then s.mboxStore k x va (BitVec.ofNat 64 v) len cost
    else if ownWindow k x ∧ x.tt ≠ 5 then .next (s.storeLE x.key n v)
    else s.ask k x va (.write n v) .store len cost

end Sys2Proof.Machine
end

