-- ==== Sys2Proof/Machine/Actors.lean ====
section
/-! DEFINITION. Messages, mailboxes, actors and launches: SEND to JOIN (R187 to R198). -/

namespace Sys2Proof.Machine

/-! ### Status results (R187) -/

def statusWord (n : Nat) : Word := BitVec.ofNat 64 (2 ^ 63 + n)
abbrev stNORES : Word := statusWord 1
abbrev stNOOBJ : Word := statusWord 2
abbrev stBUSY : Word := statusWord 3
abbrev stDENIED : Word := statusWord 4
abbrev stBADREC : Word := statusWord 5
abbrev stNOFIT : Word := statusWord 6
abbrev stFULL : Word := statusWord 7
abbrev stEMPTY : Word := statusWord 8
abbrev stTYPECLASH : Word := statusWord 9

/-- The instruction completes with a value in D and L. -/
def State.gives (s : State) (k : Nat) (d : Dst) (v : Word) : Act := .next (s.modSlot k fun sl => sl.write d v)

/-- The instruction completes with a value, unless it has removed the actor that ran it. -/
def State.givesIfLive (s : State) (k : Nat) (d : Dst) (v : Word) (charge : Nat) : Act :=
  if (s.slot k).status = .live then s.gives k d v else .ends (s.modSlot k fun sl => sl.charge charge)

/-! ### SEND and SENDR (R188, R189) -/

/-- A reply tag that no outstanding reservation of the slot holds (R179). -/
def Slot.freshTag (sl : Slot) : BitVec 16 :=
  (((List.range 16).map fun i => sl.rtagNext + BitVec.ofNat 16 i).find? fun t => t ≠ 0 && !sl.resv.contains t).getD sl.rtagNext

/-- q0 to q5 as a payload. -/
def Slot.payload (sl : Slot) : Vector Word 6 := #v[sl.q[0], sl.q[1], sl.q[2], sl.q[3], sl.q[4], sl.q[5]]

/-- Sends the message of SEND through the mailbox page at `ea`: the reservation, the bead, the release and the
message. -/
def State.sendNow (s : State) (k : Nat) (ea : Word) (dst : Nat) (ctl : Word) (type : BitVec 8) (mb : BitVec 2) : State :=
  let sl := s.slot k
  let rsv := bit ctl 28
  let tag := if rsv then sl.freshTag else 0
  let s := s.release k
  let s := s.modSlot k fun sl =>
    let sl := if rsv then { sl with resv := sl.resv ++ [tag], rtagNext := tag + 1 } else sl
    if bit ctl 27 then sl else sl.beadUp 1
  s.bump.sendVia (some ⟨s.nextId, sl.asid, ea⟩) (keyCore k)
    (s.header 0 (keyCore k) (keySlot k).val sl.cls.toNat sl.jobcol.toNat rsv false mb.toNat type.toNat)
    tag (ctl.extractLsb' 32 32) sl.payload dst sl.ctxid
    (if bit ctl 27 then .status (bits ctl 17 0) else .bead) false

/-- SEND (R188). FADDR of its faults is the address of rd(A) (log 43). -/
def execSend (a b : Src) (type : BitVec 8) (mb : BitVec 2) (s : State) : Host.Outcome State Fault Refusal :=
  s.run { feats := [0] } 4 2 0 fun k =>
    let sl := s.slot k
    let ea := sl.read a
    let ctl := sl.read b
    if bits ea 63 52 ≠ 0 then .trap 0x105#10 ea
    else if bits ea 15 0 ≠ 0 ∨ (bit ctl 27 ∧ bits ctl 2 0 ≠ 0) then .trap 0x104#10 ea
    else
      match s.translate (keyCore k) sl.asid sl.cls .store ea with
      | .error e => .trap e ea
      | .ok x =>
        if x.tt ≠ 4 then .trap 0x106#10 ea
        else
          let s := s.fillTlb (keyCore k) x
          if bit ctl 28 ∧ sl.granted ≤ sl.resv.length then .wait s .reservation
          else if !bit ctl 27 ∧ sl.beads[1] = 63 then .wait s (.beadRoom 1)
          else .next (s.sendNow k ea ((windowCore x.pa).getD 0) ctl type mb)

/-- The core that no message reaches: where a reply that must fail goes (R189). -/
abbrev noCore : Nat := 4096

/-- SENDR (R189): a header that is no request of the own module makes the reply fail with 0x203. -/
def execSendr (a b : Src) (type : BitVec 8) (mb : BitVec 2) (s : State) : Host.Outcome State Fault Refusal :=
  s.run { feats := [0] } 4 2 0 fun k =>
    let sl := s.slot k
    let h0 := sl.read a
    let h1 := sl.read b
    let good := decide (bits h0 55 52 = 0) && bit h0 11 && decide (bits h0 43 36 = s.module.nodeX.toNat) &&
      decide (bits h0 51 44 = s.module.nodeY.toNat)
    if sl.beads[1] = 63 then .wait s (.beadRoom 1)
    else
      let s := (s.release k).modSlot k fun sl => sl.beadUp 1
      .next (s.send (keyCore k)
        (s.header 1 (keyCore k) (keySlot k).val sl.cls.toNat sl.jobcol.toNat false true mb.toNat type.toNat)
        (h1.extractLsb' 48 16) (Config.replyKey s.tick) sl.payload (if good then bits h0 35 24 else noCore)
        sl.ctxid .bead false)

/-! ### MBCFG (R190) -/

/-- The mask that four words hold: type t is bit t & 63 of word t >> 6. -/
def maskOf (l : List Word) : BitVec 256 :=
  (l.getD 3 0) ++ (l.getD 2 0) ++ (l.getD 1 0) ++ (l.getD 0 0)

/-- Replaces a mailbox and chooses the candidate again. -/
def State.setMailbox (s : State) (k : Nat) (n : Fin 4) (m : Mailbox) : State :=
  (s.modSlot k fun sl => { sl with mb := sl.mb.set n m }).refresh k

/-- MBCFG_SET (R190). The mask is read before the statuses are judged (log 92). -/
def execMbcfgSet (d : Dst) (a v : Src) (s : State) : Host.Outcome State Fault Refusal :=
  s.run { feats := [0] } 4 2 0 fun k =>
    let sl := s.slot k
    let ctl := sl.read v
    let n := ix 4 (bits ctl 1 0)
    let quota := bits ctl 9 3
    match (s.release k).ordinaryWords (keyCore k) sl.asid sl.cls (sl.read a) 4 with
    | .error (e, va) => .trap e va
    | .ok (s, l) =>
      let m := sl.mb[n]
      let old := if m.conf then m.quota.toNat else 0
      if quota = 0 ∨ 64 < quota then s.gives k d stBADREC
      else if 128 < s.poolUsed (keyCore k) - old + quota then s.gives k d stNORES
      else if m.held ≠ [] ∧ (m.ord ≠ bit ctl 2 ∨ (quota < m.quota.toNat ∧ quota < m.held.length)) then s.gives k d stBUSY
      else
        (s.setMailbox k n { m with
          conf := true, ord := bit ctl 2, quota := BitVec.ofNat 7 quota, mask := maskOf l,
          nextKey := if m.held = [] then 0 else m.nextKey }).gives k d 0

/-- MBCFG_OFF (R190). -/
def execMbcfgOff (d : Dst) (v : Src) (s : State) : Host.Outcome State Fault Refusal :=
  s.run { feats := [0] } 4 2 0 fun k =>
    let n := ix 4 (bits ((s.slot k).read v) 1 0)
    if ((s.slot k).mb[n]).held ≠ [] then s.gives k d stBUSY else (s.setMailbox k n .reset).gives k d 0

/-- MBCFG_KEY (R190). -/
def execMbcfgKey (d : Dst) (a v : Src) (s : State) : Host.Outcome State Fault Refusal :=
  s.run { feats := [0] } 4 2 0 fun k =>
    let n := ix 4 (bits ((s.slot k).read v) 1 0)
    let m := (s.slot k).mb[n]
    if !m.conf ∨ !m.ord then s.gives k d stDENIED
    else if m.count ≠ 0 then s.gives k d stBUSY
    else (s.setMailbox k n { m with nextKey := ((s.slot k).read a).setWidth 32 }).gives k d 0

/-- The stat word of a mailbox (R190). -/
def Mailbox.stat (m : Mailbox) : Word :=
  fields [(if m.conf ∧ m.ord then m.nextKey.toNat else 0, 32), (m.conf.toNat, 15), (m.ord.toNat, 14),
    (m.quota.toNat, 7), (m.held.length, 0)]

/-- MBCFG_STAT (R190). -/
def execMbcfgStat (d : Dst) (v : Src) (s : State) : Host.Outcome State Fault Refusal :=
  s.run { feats := [0] } 4 2 0 fun k =>
    s.gives k d ((s.slot k).mb[ix 4 (bits ((s.slot k).read v) 1 0)]).stat

/-- MBCFG_RCAN (R190). -/
def execMbcfgRcan (d : Dst) (s : State) : Host.Outcome State Fault Refusal :=
  s.run { feats := [0] } 4 2 0 fun k => (s.modSlot k fun sl => { sl with resv := [] }).gives k d 0

/-! ### Creating actors (R191, R84, R77) -/

/-- What a creation record or a launch asks for. -/
structure Creation where
  desc   : Word
  gen    : Word
  act    : BitVec 3
  cls    : BitVec 2
  rres   : Nat
  colour : BitVec 6
  mb0q   : Nat
  budget : BitVec 32
  asid   : BitVec 16
  deriving DecidableEq, Repr

/-- Ranges, and the budget and reservations of a class (R95, R191). -/
def Creation.fits (r : Creation) : Bool :=
  decide (r.rres ≤ 8) && decide (1 ≤ r.mb0q) && decide (r.mb0q ≤ 32) &&
  !(r.cls = 1 && (r.rres ≠ 0 || r.budget ≠ 0)) && !(r.cls = 3 && r.budget ≠ 0)

/-- Reply reservations that the slot takes (R95). -/
def Creation.grant (r : Creation) : Nat := if r.cls = 1 then 2 else r.rres

/-- The budget of the slot (R191). -/
def Creation.limit (r : Creation) : BitVec 32 :=
  match r.cls.toNat with
  | 0 => if r.budget = 0 then 1048576 else r.budget
  | 1 => 4096
  | 2 => r.budget
  | _ => 0

/-- Whether a descriptor is current: its generation stands and it is not unloading (R84, R86). -/
def State.current (s : State) (desc gen : Word) : Bool :=
  s.descHolds desc gen && decide (s.loadLE (s.own (desc.toNat + 0x14)) 4 % 2 = 0)

/-- Reads the load descriptor and the vector records of an object as a scheduler does: held words make the step
wait, and each is resolved (R84, R358, R362). -/
def State.openObject (s : State) (desc : Word) : State :=
  let d := s.own desc.toNat
  let words := (List.range 8).map (fun i => d + 8 * i) ++
    (List.range (s.loadLE (d + 0x20) 2)).map fun i => s.own (s.loadLE (d + 0x18) 8 + 8 * i)
  words.foldl (fun s key => (s.open key 8).resolve key 8) s

/-! ### Load references and unloading (R86, R87) -/

/-- Whether a queue has processed its unload of an object (R86). -/
def State.unloadedBy (s : State) (queue : Nat) (desc gen : Word) : Bool :=
  s.module.refs.any fun r => decide (r.queue = queue) && decide (r.desc = desc) && decide (r.gen = gen) && r.gone

/-- Counts a reference of a queue on an object: REFS of the descriptor, and the queue's own record. A second
load-reference packet of one queue counts again (log 74). -/
def State.addReference (s : State) (queue : Nat) (desc gen : Word) : State :=
  let key := s.own (desc.toNat + 0x10)
  let s := (s.open key 4).storeOp key 4 ((s.loadLE key 4 + 1) % 2 ^ 32)
  s.modModule fun m => { m with refs := m.refs ++ [⟨queue, desc, gen, false⟩] }

/-- Whether a reference is one that a queue still holds. -/
def QueueRef.held (r : QueueRef) (queue : Nat) (desc gen : Word) : Bool :=
  decide (r.queue = queue) && decide (r.desc = desc) && decide (r.gen = gen) && !r.gone

/-- Drops a reference of a queue of an ASID; the last one marks the object unloading (R86, R87). -/
def State.dropReference (s : State) (queue : Nat) (asid : BitVec 16) (desc gen : Word) : State :=
  let key := s.own (desc.toNat + 0x10)
  let n := s.loadLE key 4 - 1
  let s := (s.open key 8).storeOp key 4 n
  let s := s.modModule fun m =>
    match findPos (fun (r : QueueRef) => r.held queue desc gen) m.refs with
    | some i => { m with refs := (m.refs.mapIdx fun j r => if j = i then { r with gone := true } else r) }
    | none => m
  if n = 0 then
    (s.storeOp (key + 4) 4 1).modModule fun m => { m with unloads := m.unloads ++ [⟨desc, asid, gen, false⟩] }
  else s

/-- A load-reference or unload packet of a queue of an ASID (R86): a reference on an object that is not current,
and an unload by a queue that holds none, give NOOBJ. Neither has a launch id: the result is 0 (log 74). -/
def State.refer (s : State) (queue : Nat) (asid : BitVec 16) (kind : Nat) (desc gen : Word) : State × Except Word Nat :=
  let s := s.openObject desc
  if !s.current desc gen then (s, .error stNOOBJ)
  else if kind = 1 then (s.addReference queue desc gen, .ok 0)
  else if s.module.refs.any fun r => r.held queue desc gen then (s.dropReference queue asid desc gen, .ok 0)
  else (s, .error stNOOBJ)

/-- The vector records of an object for an actor number: type and vector entry for slot `n` (R77). -/
def State.bindings (s : State) (desc : Word) (act : BitVec 3) (n : Nat) : List (Nat × Word) :=
  let d := s.own desc.toNat
  let vtab := s.loadLE (d + 0x18) 8
  let code := s.loadLE (d + 0x30) 8
  (List.range (s.loadLE (d + 0x20) 2)).filterMap fun i =>
    let r := s.own (vtab + 8 * i)
    let b := s.loadLE (r + 1) 1
    if b / 16 % 8 = act.toNat then
      some (s.loadLE r 1, fields [(1, 63), (n, 60), (b / 4 % 4, 58), (b % 4, 56),
        ((code + s.loadLE (r + 4) 4) % 2 ^ 52 / 2 * 2, 0)])
    else none

/-- The first empty slot of a core. -/
def State.emptySlot (s : State) (c : Nat) : Option Nat :=
  (List.range 8).find? fun n => (s.slot (slotKey c n)).status = .empty

/-- Whether one of the types is already bound on the core (R191). -/
def State.typeClash (s : State) (c : Nat) (types : List Nat) : Bool :=
  types.any fun t => bit (s.core c).vect[ix 256 t] 63

/-- Checks 4 and 5 of R191: the slot that a creation takes, or a status; the context map has 64 entries
(R227). -/
def State.placeFor (s : State) (c : Nat) (r : Creation) : Except Word Nat :=
  if s.typeClash c ((s.bindings r.desc r.act 0).map (·.1)) then .error stTYPECLASH
  else
    match s.emptySlot c with
    | none => .error stNORES
    | some n =>
      if s.poolFree c (r.grant + r.mb0q) ∧ (s.core c).ctxs.length < 64 then .ok n else .error stNORES

/-- The next CTXID of a core: its counter, never 0 and held by no entry (R227). -/
def State.nextCtx (s : State) (c : Nat) : BitVec 32 :=
  let n := (s.core c).ctxNext
  let n := if n = 0 then 1 else n
  if (s.ctx c n).isSome then
    (((List.range 128).map fun i => n + BitVec.ofNat 32 (i + 1)).find? fun m =>
      m ≠ 0 ∧ (s.ctx c m).isNone).getD n
  else n

/-- Creates an actor in an empty slot (R88, R191): the slot's state, its context, then the vector
entries. -/
def State.create (s : State) (c n : Nat) (r : Creation) (launch : Option Membership) : State :=
  let id := s.nextCtx c
  let binds := s.bindings r.desc r.act n
  let mask := binds.foldl (fun m b => m ||| (1#256 <<< b.1)) 0#256
  let mb0 : Mailbox := ⟨true, false, BitVec.ofNat 7 r.mb0q, mask, 0, [], 0⟩
  let s := s.setSlot (slotKey c n) { Slot.reset with
    status := .live, cls := r.cls, asid := r.asid, ctxid := id, jobcol := r.colour, budget := r.limit,
    desc := r.desc, gen := r.gen, act := r.act, granted := r.grant, launch := launch,
    mb := (Vector.replicate 4 Mailbox.reset).set 0 mb0 }
  s.modCore c fun co =>
    { co with
      ctxNext := id + 1
      ctxs := co.ctxs ++ [⟨id, .slot (ix 8 n), [], none, false, [], []⟩]
      vect := binds.foldl (fun v b => v.set (ix 256 b.1) b.2) co.vect }

/-- The creation record of ACTOR.new (R191), and whether its zero fields are zero. -/
def creationOf (l : List Word) (asid : BitVec 16) : Creation × Bool :=
  let w2 := l.getD 2 0
  let w3 := l.getD 3 0
  let cls : BitVec 2 := w2.extractLsb' 8 2
  (⟨l.getD 0 0, l.getD 1 0, w2.extractLsb' 0 3, cls, bits w2 23 16, w2.extractLsb' 24 6, bits w2 39 32,
    w3.setWidth 32, if 2 ≤ cls.toNat then w3.extractLsb' 32 16 else asid⟩,
   decide (bits w2 7 3 = 0) && decide (bits w2 15 10 = 0) && decide (bits w2 31 30 = 0) &&
   decide (bits w2 63 40 = 0) && decide (bits w3 63 48 = 0))

/-- ACTOR_NEW (R191). -/
def execActorNew (d : Dst) (a : Src) (s : State) : Host.Outcome State Fault Refusal :=
  s.run { feats := [0] } 4 4 0 fun k =>
    let sl := s.slot k
    let c := keyCore k
    match (s.release k).ordinaryWords c sl.asid sl.cls (sl.read a) 4 with
    | .error (e, va) => .trap e va
    | .ok (s, l) =>
      let (r, zero) := creationOf l sl.asid
      let s := s.openObject r.desc
      if !zero ∨ !r.fits then s.gives k d stBADREC
      else if sl.cls = 1 ∨ (sl.cls = 0 ∧ (2 ≤ r.cls.toNat ∨ r.colour ≠ sl.jobcol)) ∨
          (2 ≤ r.cls.toNat ∧ s.tenant c r.asid) then s.gives k d stDENIED
      else if !s.current r.desc r.gen then s.gives k d stNOOBJ
      else
        match s.placeFor c r with
        | .error e => s.gives k d e
        | .ok n => (s.create c n r none).gives k d (BitVec.ofNat 64 n)

/-- ACTOR_EXIT (R191): the actor is removed when the current activation retires. -/
def execActorExit (s : State) : Host.Outcome State Fault Refusal :=
  s.run { feats := [0] } 4 4 0 fun k => .next (s.modSlot k fun sl => { sl with exiting := true })

/-- The slot that a target operand names (R191, R232). -/
def targetSlot (x : Word) : Nat := slotKey (bits x 11 0) (bits x 14 12)

/-- ACTOR_KILL (R191). -/
def execActorKill (d : Dst) (a : Src) (s : State) : Host.Outcome State Fault Refusal :=
  s.run { feats := [0] } 4 4 0 fun k =>
    let sl := s.slot k
    let t := targetSlot (sl.read a)
    if (s.slot t).status ≠ .live then s.gives k d stNOOBJ
    else if sl.cls.toNat < 2 ∧ (s.slot t).asid ≠ sl.asid then s.gives k d stDENIED
    else (s.removeActor t (some 0x212#10)).givesIfLive k d 0 4

/-! ### Launches (R192 to R195, R198) -/

/-- The cores that a placement selects, in ascending order (R193). -/
def placement (scope anchor : Nat) (bitmap : Word) : List Nat :=
  let pick (n : Nat) (cores : Nat → List Nat) : List Nat :=
    (List.range n).flatMap fun i => if bit bitmap i then cores i else []
  match scope with
  | 1 => pick 1 fun _ => [anchor]
  | 2 => pick 4 fun i => [anchor / 4 * 4 + i]
  | 3 => pick 64 fun i => (List.range 4).map (anchor / 256 * 256 + 4 * i + ·)
  | _ => pick 64 fun i => (List.range 16).map (anchor / 1024 * 1024 + 16 * i + ·)

/-- Bits of BITMAP that a scope uses (R193). -/
def placementBits (scope : Nat) : Nat := if scope = 1 then 1 else if scope = 2 then 4 else 64

/-- The variant that the size-class selector picks (R194): LIMIT and ACT. -/
def variantOf (w6 w7 : Word) (z : Nat) : Option Nat :=
  let vs := [bits w6 31 0, bits w6 63 32, bits w7 31 0, bits w7 63 32]
  (vs.foldl (fun (b : Option Nat) v =>
    if v / 2 ^ 27 % 2 = 1 ∧ z ≤ v % 2 ^ 24 then
      match b with
      | some u => if v % 2 ^ 24 < u % 2 ^ 24 then some v else some u
      | none => some v
    else b) none).map fun v => v / 2 ^ 24 % 8

/-- The creation that a launch record asks for. -/
def launchCreation (w : Vector Word 8) (act : Nat) (asid : BitVec 16) : Creation :=
  ⟨w[2], w[3], BitVec.ofNat 3 act, w[4].extractLsb' 0 2, bits w[4] 15 8, w[0].extractLsb' 16 6,
   bits w[4] 23 16, w[4].extractLsb' 32 32, asid⟩

/-- Step 1 of R195 and the ranges of R192. -/
def launchFormed (die : Nat) (w : Vector Word 8) : Bool :=
  let scope := bits w[0] 26 24
  decide (bits w[0] 7 0 = 0) && decide (bits w[0] 15 10 = 0) && decide (bits w[0] 23 22 = 0) &&
  decide (bits w[0] 31 27 = 0) && (bit w[0] 9 || decide (bits w[0] 47 42 = 0)) &&
  decide (bits w[0] 63 60 = 0) && decide (1 ≤ scope) && decide (scope ≤ 4) &&
  decide (w[1] ≠ 0) && decide (w[1].toNat < 2 ^ placementBits scope) && decide (bits w[0] 59 58 = die) &&
  decide (bits w[4] 7 2 = 0) && decide (bits w[4] 31 28 = 0) && decide (bits w[4] 27 24 ≤ 8) &&
  decide (bits w[5] 63 52 = 0) && decide (bits w[5] 5 4 = 0) &&
  decide (bits w[6] 31 28 = 0) && decide (bits w[6] 63 60 = 0) && decide (bits w[7] 31 28 = 0) &&
  decide (bits w[7] 63 60 = 0) && (launchCreation w 0 0).fits

/-- The checks of R195: the actor number, or a status. `c` is the core whose table says which ASIDs are tenant
ASIDs (R233, log 22), and `strict` a class 0 launcher's colour. -/
def State.launchStatus (s : State) (die c : Nat) (w : Vector Word 8) (z : Nat) (asid : BitVec 16)
    (strict : Option (BitVec 6)) : Except Word Nat :=
  let r := launchCreation w 0 asid
  if !launchFormed die w then .error stBADREC
  else if (strict.any fun c => 2 ≤ r.cls.toNat || r.colour ≠ c) ∨
      (2 ≤ r.cls.toNat ∧ s.tenant c asid) then .error stDENIED
  else if !s.current r.desc r.gen then .error stNOOBJ
  else
    match variantOf w[6] w[7] z with
    | none => .error stNOFIT
    | some act => .ok act

/-- The eight words of a record. -/
def vec8 (l : List Word) : Vector Word 8 :=
  #v[l.getD 0 0, l.getD 1 0, l.getD 2 0, l.getD 3 0, l.getD 4 0, l.getD 5 0, l.getD 6 0, l.getD 7 0]

/-- Words of the message block that MSGS names: NMSG messages and NPW descriptors (R195). -/
def blockWords (w : Vector Word 8) : Nat := 8 * bits w[5] 3 0 + 2 * bits w[4] 27 24

/-- The address of the message block. -/
def blockAddr (w : Vector Word 8) : Word := BitVec.ofNat 64 (bits w[5] 51 6 * 64)

/-- A message image: eight words. -/
def msgOf (l : List Word) : Msg :=
  let v := vec8 l
  ⟨v[0], v[1], #v[v[2], v[3], v[4], v[5], v[6], v[7]]⟩

/-- The initial messages of a block. -/
def blockMsgs (w : Vector Word 8) (l : List Word) : List Msg :=
  (List.range (bits w[5] 3 0)).map fun i => msgOf ((l.drop (8 * i)).take 8)

/-- The parameter windows of a block, as their registers hold them (R148). -/
def blockWindows (w : Vector Word 8) (l : List Word) : List (Word × Word) :=
  let rest := l.drop (8 * bits w[5] 3 0)
  (List.range (bits w[4] 27 24)).map fun i =>
    (pwWord true (rest.getD (2 * i) 0), pwWord false (rest.getD (2 * i + 1) 0))

/-- Records of a die's scheduler that still have a child to place (R195). -/
def Die.queued (d : Die) : Nat := (d.launches.filter fun l => l.waiting ≠ []).length

/-- An id that no outstanding launch of the die has, from a number on (R195). -/
def Die.idFrom (d : Die) (n : Nat) : Nat :=
  (((List.range (d.launches.length + 1)).map fun i => (n + i) % 2 ^ 32).find? fun i =>
    !d.launches.any fun l => l.id = i).getD (n % 2 ^ 32)

/-- The id of the die's next launch. -/
def Die.freshId (d : Die) : Nat := d.idFrom d.nextId

/-- Queues an accepted launch under a new id (R195). -/
def State.queueLaunch (s : State) (die : Nat) (w : Vector Word 8) (msgs : List Msg)
    (pws : List (Word × Word)) (launcher : Launcher) (asid : BitVec 16) (act : Nat) (jobcol : BitVec 6) : State :=
  let cores := placement (bits w[0] 26 24) (bits w[0] 59 48) w[1]
  s.modDie die fun d =>
    { d with
      nextId := d.freshId + 1
      launches := d.launches ++ [⟨d.freshId, w, msgs, pws, launcher, asid, BitVec.ofNat 3 act, cores,
        0, 0, 0, none, false, List.range cores.length, [], jobcol⟩] }

/-- LAUNCH (R195). -/
def execLaunch (d : Dst) (a v : Src) (s : State) : Host.Outcome State Fault Refusal :=
  s.run { feats := [0] } 4 4 0 fun k =>
    let sl := s.slot k
    let c := keyCore k
    let die := dieOf c
    let ea := sl.read a
    if sl.cls = 1 then s.gives k d stDENIED
    else if ea.toNat % 64 ≠ 0 then .trap 0x104#10 ea
    else
      match (s.release k).ordinaryWords c sl.asid sl.cls ea 8 with
      | .error (e, va) => .trap e va
      | .ok (s, l) =>
        let w := vec8 l
        match s.ordinaryWords c sl.asid sl.cls (blockAddr w) (blockWords w) with
        | .error (e, va) => .trap e va
        | .ok (s, b) =>
          let s := s.openObject w[2]
          match s.launchStatus die c w (sl.read v).toNat sl.asid (if sl.cls = 0 then some sl.jobcol else none) with
          | .error e => s.gives k d e
          | .ok act =>
            if 64 ≤ (s.die die).queued then .wait s (.launchRoom die)
            else if wantsJoin w ∧ !s.poolFree c 1 then .wait s (.pool c)
            else
              let id := (s.die die).freshId
              let s := if wantsJoin w then s.modCore c fun co => { co with joins := co.joins + 1 } else s
              (s.queueLaunch die w (blockMsgs w b) (blockWindows w b)
                (.slot c (keySlot k) sl.ctxid sl.cls) sl.asid act sl.jobcol).gives k d (BitVec.ofNat 64 id)

/-- A launch of the issuing die by its id. -/
def State.launchOf (s : State) (die id : Nat) : Option Launch := (s.die die).launches.find? fun l => l.id = id

/-- JOIN_STAT (R198). -/
def execJoinStat (d : Dst) (a : Src) (s : State) : Host.Outcome State Fault Refusal :=
  s.run { feats := [0] } 4 2 0 fun k =>
    match s.launchOf (dieOf (keyCore k)) ((s.slot k).read a).toNat with
    | none => s.gives k d stNOOBJ
    | some l =>
      if l.asid ≠ (s.slot k).asid then s.gives k d stDENIED
      else s.gives k d (fields [(l.completed, 0), (l.faulted, 16), (l.placed, 32), (l.n, 48)])

/-- Removes or cancels every child of a launch (R198): the state and how many. -/
def State.killLaunch (s : State) (die : Nat) (l : Launch) : State × Nat :=
  let mine (m : Option Membership) : Bool := m.any fun m => decide (m.die = die) && decide (m.id = l.id)
  let live := (s.slots.filter fun e => decide (e.2.status = .live) && mine e.2.launch).map (·.1)
  let away := s.cores.flatMap fun e => (e.2.ctxs.filter fun x => mine x.launch).map fun x => (e.1, x)
  let s := s.modDie die fun d => { d with launches := d.launches.map fun x =>
    if x.id = l.id then { x with waiting := [], sent := [] } else x }
  let s := live.foldl (fun s k => s.removeActor k (some 0x212#10)) s
  let s := away.foldl (fun s e => s.removeEvicted e.1 e.2 (some 0x212#10)) s
  let s := l.waiting.foldl (fun s ch => s.childEnd ⟨die, l.id, ch⟩ (some 0x212#10)) s
  (s, live.length + away.length + l.waiting.length)

/-- JOIN_KILL (R198). -/
def execJoinKill (d : Dst) (a : Src) (s : State) : Host.Outcome State Fault Refusal :=
  s.run { feats := [0] } 4 2 0 fun k =>
    let die := dieOf (keyCore k)
    match s.launchOf die ((s.slot k).read a).toNat with
    | none => s.gives k d stNOOBJ
    | some l =>
      if l.asid ≠ (s.slot k).asid then s.gives k d stDENIED
      else
        let (s, n) := s.killLaunch die l
        s.givesIfLive k d (BitVec.ofNat 64 n) 2

end Sys2Proof.Machine
end

