-- ==== Sys2Proof/Machine/MemoryInsns.lean ====
section
/-! DEFINITION. The memory instructions (R143 to R157). -/

namespace Sys2Proof.Machine

/-- Bytes of an access size (R54). -/
def sizeOf (sz : BitVec 2) : Nat := 2 ^ sz.toNat

/-- The effective address of format M (R143). -/
def effAddr (sl : Slot) (b : Src) (n : Nat) (off : BitVec 5) : Word :=
  sl.read b + off.signExtend 64 * BitVec.ofNat 64 n

/-- LD (R143). -/
def execLd (d : Dst) (b : Src) (sz : BitVec 2) (off : BitVec 5) (g : PredNo) (s : State) :
    Host.Outcome State Fault Refusal :=
  s.run { feats := [0] } 4 2 g fun k =>
    s.readAct k .load (effAddr (s.slot k) b (sizeOf sz) off) (sizeOf sz) (sizeOf sz)
      (.load d (sizeOf sz) true) 4 2

/-- LDN (R143). -/
def execLdn (d : Dst) (b : Src) (sz : BitVec 2) (off : BitVec 5) (g : PredNo) (s : State) :
    Host.Outcome State Fault Refusal :=
  s.run { feats := [0] } 4 2 g fun k =>
    s.readAct k .load (effAddr (s.slot k) b (sizeOf sz) off) (sizeOf sz) (sizeOf sz)
      (.load d (sizeOf sz) false) 4 2

/-- ST (R143): D is read as a source; L is unchanged. -/
def execSt (d : Src) (b : Src) (sz : BitVec 2) (off : BitVec 5) (g : PredNo) (s : State) :
    Host.Outcome State Fault Refusal :=
  s.run { feats := [0] } 4 1 g fun k =>
    s.storeAct k .store (effAddr (s.slot k) b (sizeOf sz) off) (sizeOf sz) (sizeOf sz)
      (((s.slot k).read d).toNat % 2 ^ (8 * sizeOf sz)) 4 1

/-- LDX (R144). -/
def execLdx (d : Dst) (b : Src) (sz : BitVec 2) (sx : BitVec 1) (i : BitVec 2) (g : PredNo) (s : State) :
    Host.Outcome State Fault Refusal :=
  s.run { feats := [0, 2] } 4 2 g fun k =>
    s.readAct k .load (lnaddr (s.slot k) i ((s.slot k).read b)) (sizeOf sz) (sizeOf sz)
      (.load d (sizeOf sz) (sx = 1#1)) 4 2

/-- STX (R144). -/
def execStx (d : Src) (b : Src) (sz : BitVec 2) (i : BitVec 2) (g : PredNo) (s : State) :
    Host.Outcome State Fault Refusal :=
  s.run { feats := [0, 2] } 4 1 g fun k =>
    s.storeAct k .store (lnaddr (s.slot k) i ((s.slot k).read b)) (sizeOf sz) (sizeOf sz)
      (((s.slot k).read d).toNat % 2 ^ (8 * sizeOf sz)) 4 1

/-- LDH (R147). -/
def execLdh (t : HandleNo) (b : Src) (off : BitVec 5) (g : PredNo) (s : State) :
    Host.Outcome State Fault Refusal :=
  s.run { feats := [0] } 4 2 g fun k =>
    s.readAct k .handle (effAddr (s.slot k) b 32 off) 32 32 (.handle t) 4 2

/-- STH (R147). -/
def execSth (t : HandleNo) (b : Src) (off : BitVec 5) (g : PredNo) (s : State) :
    Host.Outcome State Fault Refusal :=
  s.run { feats := [0] } 4 1 g fun k =>
    s.storeAct k .handle (effAddr (s.slot k) b 32 off) 32 32 ((s.slot k).t[t.toNat]'t.isLt).toNat 4 1

/-- How many bytes of an access lie within SIZE (R149). -/
def inWindowBytes (size o n : Nat) : Nat := Nat.min n (size - o)

/-- PWLD (R149). -/
def execPwld (d : Dst) (b : Src) (sz : BitVec 2) (sx : BitVec 1) (w : BitVec 3) (g : PredNo) (s : State) :
    Host.Outcome State Fault Refusal :=
  s.run { feats := [0] } 4 2 g fun k =>
    let sl := s.slot k
    let e := sl.pw[w.toNat]'w.isLt
    let n := sizeOf sz
    let o := sl.read b
    let size := bits e.2 31 0
    let m := inWindowBytes size o.toNat n
    let oob := decide (size < o.toNat + n)
    let cont : Cont := .window d n (sx = 1#1) oob
    if !bit e.1 63 then .trap 0x10A#10 0
    else if o.toNat % n ≠ 0 then .trap 0x104#10 0
    else if m = 0 then .next (s.modSlot k fun sl => sl.land 0 cont)
    else s.readAct k .load (BitVec.ofNat 64 (bits e.1 51 3 * 8) + o) m 1 cont 4 2

/-- The meaning of AMO F 0 to 6 (R150). -/
def State.amo (s : State) (f : BitVec 3) (d : Dst) (a v : Src) : Host.Outcome State Fault Refusal :=
  s.run { feats := [0] } 4 2 0 fun k =>
    s.atomicAct k ((s.slot k).read a) 8 (.amo f ((s.slot k).read v)) d

/-- AMO_ADD (R150). -/
def execAmoAdd (d : Dst) (a v : Src) (s : State) : Host.Outcome State Fault Refusal := s.amo 0 d a v

/-- AMO_AND (R150). -/
def execAmoAnd (d : Dst) (a v : Src) (s : State) : Host.Outcome State Fault Refusal := s.amo 1 d a v

/-- AMO_OR (R150). -/
def execAmoOr (d : Dst) (a v : Src) (s : State) : Host.Outcome State Fault Refusal := s.amo 2 d a v

/-- AMO_XOR (R150). -/
def execAmoXor (d : Dst) (a v : Src) (s : State) : Host.Outcome State Fault Refusal := s.amo 3 d a v

/-- AMO_MIN (R150): signed. -/
def execAmoMin (d : Dst) (a v : Src) (s : State) : Host.Outcome State Fault Refusal := s.amo 4 d a v

/-- AMO_MAX (R150): signed. -/
def execAmoMax (d : Dst) (a v : Src) (s : State) : Host.Outcome State Fault Refusal := s.amo 5 d a v

/-- AMO_SWP (R150). -/
def execAmoSwp (d : Dst) (a v : Src) (s : State) : Host.Outcome State Fault Refusal := s.amo 6 d a v

/-- The 96-bit addend of a register pair (R151). -/
def addend96 (sl : Slot) (v : Src) : BitVec 96 := (sl.read (pairSrc v)).setWidth 32 ++ sl.read v

/-- AMO_A96 (R151). -/
def execAmoA96 (d : Dst) (a v : Src) (s : State) : Host.Outcome State Fault Refusal :=
  s.run { feats := [0, 3] } 4 2 0 fun k =>
    s.atomicAct k ((s.slot k).read a) 4 (.a96 (addend96 (s.slot k) v)) d

/-- CAS_W (R152): D is read as the expected value. -/
def execCasW (d : Dst) (a v : Src) (s : State) : Host.Outcome State Fault Refusal :=
  s.run { feats := [0] } 4 2 0 fun k =>
    s.atomicAct k ((s.slot k).read a) 4 (.cas 4 ((s.slot k).read (dstSrc d)) ((s.slot k).read v)) d

/-- CAS_D (R152): D is read as the expected value. -/
def execCasD (d : Dst) (a v : Src) (s : State) : Host.Outcome State Fault Refusal :=
  s.run { feats := [0] } 4 2 0 fun k =>
    s.atomicAct k ((s.slot k).read a) 8 (.cas 8 ((s.slot k).read (dstSrc d)) ((s.slot k).read v)) d

/-- QCLAIM (R153). -/
def execQclaim (d : Dst) (a v : Src) (s : State) : Host.Outcome State Fault Refusal :=
  s.run { feats := [0] } 4 2 0 fun k =>
    s.atomicAct k ((s.slot k).read a) 32 (.claim ((s.slot k).read v)) d

/-- A posted store of a source that is held at its controller (R362, R399). -/
def State.heldStore (s : State) (core : Nat) (ctxid : BitVec 32) : Bool :=
  s.net.reqs.any fun r => r.postedBy core ctxid && (s.waitsAt r.key r.op.size).isSome

/-- A fence that orders earlier stores (R155, R162): it waits while one is held, else all are performed.
At LANE it orders nothing beyond the source. -/
def State.fenceAct (s : State) (scope : BitVec 3) (k : Nat) : Act :=
  if scope.toNat = scLane then .next s
  else if s.heldStore (keyCore k) (s.slot k).ctxid then .wait s .drained
  else .next (s.release k)

/-- FENCE_ACQ (R155, R162): every load has its value when its instruction completes. -/
def execFenceAcq (_ : BitVec 3) (s : State) : Host.Outcome State Fault Refusal :=
  s.run { feats := [0] } 4 1 0 fun _ => .next s

/-- FENCE_REL (R155, R162). -/
def execFenceRel (scope : BitVec 3) (s : State) : Host.Outcome State Fault Refusal :=
  s.run { feats := [0] } 4 1 0 fun k => s.fenceAct scope k

/-- FENCE_FULL (R155, R162). -/
def execFenceFull (scope : BitVec 3) (s : State) : Host.Outcome State Fault Refusal :=
  s.run { feats := [0] } 4 1 0 fun k => s.fenceAct scope k

/-- WADDR (R156). -/
def State.waddr (s : State) (f : BitVec 2) (d : Dst) (a v : Src) : Host.Outcome State Fault Refusal :=
  s.run { feats := [0] } 4 1 0 fun k =>
    let va := (s.slot k).read a
    match s.check (keyCore k) (s.slot k).asid (s.slot k).cls .load .wait va 8 8 with
    | .error e => .trap e va
    | .ok x =>
      let s := s.fillTlb (keyCore k) x
      if s.poisoned x.key 8 then .trap 0x118#10 va
      else
        let w := BitVec.ofNat 64 (s.loadLE x.key 8)
        if waddrCond f w ((s.slot k).read v) then .next (s.modSlot k fun sl => sl.write d w)
        else .wait s (.word x.key va f ((s.slot k).read v) d)

/-- WADDR_EQ (R156). -/
def execWaddrEq (d : Dst) (a v : Src) (s : State) : Host.Outcome State Fault Refusal := s.waddr 0 d a v

/-- WADDR_NE (R156). -/
def execWaddrNe (d : Dst) (a v : Src) (s : State) : Host.Outcome State Fault Refusal := s.waddr 1 d a v

/-- WADDR_GES (R156). -/
def execWaddrGes (d : Dst) (a v : Src) (s : State) : Host.Outcome State Fault Refusal := s.waddr 2 d a v

/-- WADDR_ANY (R156). -/
def execWaddrAny (d : Dst) (a v : Src) (s : State) : Host.Outcome State Fault Refusal := s.waddr 3 d a v

/-- Whether every bead counter is at or below its threshold (R157). -/
def beadsBelow (sl : Slot) (ld st cp tl : BitVec 6) : Bool :=
  decide (sl.beads[0] ≤ ld) && decide (sl.beads[1] ≤ st) && decide (sl.beads[2] ≤ cp) && decide (sl.beads[3] ≤ tl)

/-- WBEAD (R157). -/
def execWbead (ld st cp tl : BitVec 6) (s : State) : Host.Outcome State Fault Refusal :=
  s.run { feats := [0] } 4 1 0 fun k =>
    if beadsBelow (s.slot k) ld st cp tl then .next s else .wait s (.beads ld st cp tl)

end Sys2Proof.Machine
end

