-- ==== Sys2Proof/Machine/Sync.lean ====
section
/-! DEFINITION. Work lists (R199 to R201), barriers (R203 to R205) and explicit range guards (R207). -/

namespace Sys2Proof.Machine

/-! ### Work lists -/

/-- Items of the list of a core and colour, oldest first (R199). -/
def Die.listOf (d : Die) (core : Nat) (colour : BitVec 6) : List WorkItem :=
  d.work.filter fun w => w.core = core ∧ w.colour = colour

/-- WLAPP (R200): a release at DIE. -/
def execWlapp (d : Dst) (a v : Src) (s : State) : Host.Outcome State Fault Refusal :=
  s.run { feats := [0] } 4 2 0 fun k =>
    let sl := s.slot k
    let die := dieOf (keyCore k)
    let core := die * 1024 + bits (sl.read a) 9 0
    let u := s.die die
    if (s.colour sl.jobcol).preempting ∨ 256 ≤ (u.listOf core sl.jobcol).length ∨ 65536 ≤ u.work.length then
      s.gives k d stFULL
    else
      let item : WorkItem := ⟨core, sl.jobcol, sl.read v, sl.read (pairSrc v)⟩
      ((s.release k).modDie die fun u => { u with work := u.work ++ [item] }).gives k d 0

/-- Removes the last element that satisfies `p`. -/
def eraseLast {α : Type} (p : α → Bool) (l : List α) : List α := (l.reverse.eraseP p).reverse

/-- The other cores that WLTAKE tries, in order, each with the result it gives (R201). -/
def takeOrder (f c : Nat) : List (Nat × Nat) :=
  let quad := if f = 0 then [] else
    [1, 2, 3].map fun i => (quadOf c * 4 + (c + i) % 4, 1)
  let clus := if f < 2 then [] else
    ((List.range 63).flatMap fun i => (List.range 4).map fun j =>
      (clusterOf c * 256 + (quadOf c % 64 + i + 1) % 64 * 4 + j, 2))
  quad ++ clus

/-- One search of WLTAKE: the item, where it was found, and the items that remain. -/
def Die.takeItem (d : Die) (f c : Nat) (colour : BitVec 6) : Option (WorkItem × Nat × List WorkItem) :=
  let mine (o : Nat) (w : WorkItem) : Bool := decide (w.core = o) && decide (w.colour = colour)
  match d.listOf c colour with
  | w :: _ => some (w, 0, d.work.eraseP (mine c))
  | [] =>
    (takeOrder f c).findSome? fun (o, r) =>
      (d.listOf o colour).getLast?.map fun w => (w, r, eraseLast (mine o) d.work)

/-- Writes a register pair without L (R201). -/
def Slot.putPair (sl : Slot) (v : Src) (lo hi : Word) : Slot := (sl.put lo (srcDst v)).put hi (srcDst (pairSrc v))

/-- WLTAKE (R201). -/
def State.wltake (s : State) (f : Nat) (d : Dst) (v : Src) : Host.Outcome State Fault Refusal :=
  s.run { feats := [0] } 4 2 0 fun k =>
    let c := keyCore k
    match (s.die (dieOf c)).takeItem f c (s.slot k).jobcol with
    | none => (s.modSlot k fun sl => sl.putPair v 0 0).gives k d stEMPTY
    | some (w, r, rest) =>
      let s := s.modDie (dieOf c) fun u => { u with work := rest }
      (s.modSlot k fun sl => sl.putPair v w.lo w.hi).gives k d (BitVec.ofNat 64 r)

/-- WLTAKE_CORE (R201). -/
def execWltakeCore (d : Dst) (v : Src) (s : State) : Host.Outcome State Fault Refusal := s.wltake 0 d v

/-- WLTAKE_QUAD (R201). -/
def execWltakeQuad (d : Dst) (v : Src) (s : State) : Host.Outcome State Fault Refusal := s.wltake 1 d v

/-- WLTAKE_CLUS (R201). -/
def execWltakeClus (d : Dst) (v : Src) (s : State) : Host.Outcome State Fault Refusal := s.wltake 2 d v

/-! ### Barriers -/

/-- The barrier pool of a scope around a core (R203): CLUS and QUAD share the cluster's. -/
def State.pool (s : State) (scope c : Nat) : AMap Barrier :=
  if scope = scCore then (s.core c).barr
  else if scope ≤ scClus then (s.cluster (clusterOf c)).barr
  else if scope = scDie then (s.die (dieOf c)).barr
  else s.module.barr

/-- Barriers in the pool of a scope. -/
def poolSize (scope : Nat) : Nat :=
  if scope = scCore then 128 else if scope ≤ scClus then 64 else if scope = scDie then 16 else 8

/-- Replaces a barrier. -/
def State.setBarrier (s : State) (scope c n : Nat) (b : Barrier) : State :=
  if scope = scCore then s.modCore c fun x => { x with barr := x.barr.set n b }
  else if scope ≤ scClus then s.modCluster (clusterOf c) fun x => { x with barr := x.barr.set n b }
  else if scope = scDie then s.modDie (dieOf c) fun x => { x with barr := x.barr.set n b }
  else s.modModule fun x => { x with barr := x.barr.set n b }

/-- The handle of a barrier (R203). -/
def barrierHandle (owner : BitVec 12) (scope : BitVec 3) (n : Nat) : Word :=
  fields [(owner.toNat, 12), (scope.toNat, 8), (n, 0)]

/-- The barrier that a handle names for slot `k`, where it is usable here (R203). -/
def State.barrierOf (s : State) (k : Nat) (h : Word) : Option Barrier :=
  let scope := bits h 10 8
  let b := AMap.get .reset (s.pool scope (keyCore k)) (bits h 6 0)
  if b.alloc ∧ h = barrierHandle b.owner b.scope (bits h 6 0) ∧ b.asid = (s.slot k).asid ∧
      sameScope scope b.owner.toNat (keyCore k) then some b
  else none

/-- BALLOC (R204). -/
def execBalloc (scope : BitVec 3) (d : Dst) (a : Src) (s : State) : Host.Outcome State Fault Refusal :=
  s.run { feats := [0] } 4 2 0 fun k =>
    let c := keyCore k
    let n := ((s.slot k).read a).setWidth 16
    if n = 0 then s.gives k d stBADREC
    else
      match (List.range (poolSize scope.toNat)).find? fun i => !(AMap.get .reset (s.pool scope.toNat c) i).alloc with
      | none => s.gives k d stNORES
      | some i =>
        let owner := BitVec.ofNat 12 c
        (s.setBarrier scope.toNat c i ⟨true, n, 0, 0, (s.slot k).asid, owner, scope⟩).gives k d
          (barrierHandle owner scope i)

/-- Whether an activation waits on a barrier. -/
def State.barrierWaited (s : State) (h : Word) : Bool :=
  s.slots.any fun e => match e.2.phase with
    | .blocked (.barrier g _ _) => g = h
    | _ => false

/-- BFREE (R204). -/
def execBfree (d : Dst) (a : Src) (s : State) : Host.Outcome State Fault Refusal :=
  s.run { feats := [0] } 4 2 0 fun k =>
    let h := (s.slot k).read a
    match s.barrierOf k h with
    | none => .trap 0x204#10 0
    | some b =>
      if b.cnt ≠ 0 ∨ s.barrierWaited h then s.gives k d stBUSY
      else (s.setBarrier (bits h 10 8) (keyCore k) (bits h 6 0) .reset).gives k d 0

/-- A barrier after one arrival (R205). -/
def Barrier.arrive (b : Barrier) : Barrier :=
  if b.cnt + 1 = b.n then { b with cnt := 0, phase := b.phase + 1 } else { b with cnt := b.cnt + 1 }

/-- The condition of BWAIT (R205). -/
def Barrier.passed (b : Barrier) (t : BitVec 32) : Bool := !(b.phase - t).msb

/-- A phase of a barrier has completed: the activations that wait for it read PHASE (R205). -/
def State.wakePhase (s : State) (h : Word) (b : Barrier) : State :=
  { s with slots := s.slots.map fun (e : Nat × Slot) => (e.1, match e.2.phase with
      | .blocked (.barrier g t d) =>
        if g = h ∧ b.passed t then { e.2 with phase := .blocked (.woken (b.phase.setWidth 64) d) } else e.2
      | _ => e.2) }

/-- BARR (R205): the arrival releases the source's earlier accesses. -/
def execBarr (d : Dst) (a : Src) (s : State) : Host.Outcome State Fault Refusal :=
  s.run { feats := [0] } 4 2 0 fun k =>
    let h := (s.slot k).read a
    match s.barrierOf k h with
    | none => .trap 0x204#10 0
    | some b =>
      (((s.release k).setBarrier (bits h 10 8) (keyCore k) (bits h 6 0) b.arrive).wakePhase h b.arrive).gives k d
        ((b.phase + 1).setWidth 64)

/-- BWAIT (R205). -/
def execBwait (d : Dst) (a v : Src) (s : State) : Host.Outcome State Fault Refusal :=
  s.run { feats := [0] } 4 1 0 fun k =>
    let h := (s.slot k).read a
    let t := ((s.slot k).read v).setWidth 32
    match s.barrierOf k h with
    | none => .trap 0x204#10 0
    | some b => if b.passed t then s.gives k d (b.phase.setWidth 64) else .wait s (.barrier h t d)

/-! ### Range guard entries (R158, R159, R207) -/

/-- Numbers of the free entries of a core's range guard table. -/
def State.freeGuards (s : State) (c : Nat) : List Nat :=
  (List.range 16).filter fun i => !(s.core c).guards.any fun g => g.idx = i

/-- Enters one range; nothing where the table is full. -/
def State.enterGuard (s : State) (c : Nat) (g : Guard) : State :=
  match s.freeGuards c with
  | [] => s
  | i :: _ => s.modCore c fun co => { co with guards := co.guards ++ [{ g with idx := i }] }

/-- The space and start of a translated range, as R158 compares it. -/
def guardRange (asid : BitVec 16) (va : Word) (x : Xlate) : GuardSpace × Nat :=
  if (windowCore x.pa).isSome then (.phys, x.key) else (.virt asid, va.toNat)

/-- RGSET F 0 and 1 (R207). -/
def State.rgset (s : State) (write : Bool) (d : Dst) (a v : Src) : Host.Outcome State Fault Refusal :=
  s.run { feats := [0] } 4 2 0 fun k =>
    let sl := s.slot k
    let c := keyCore k
    let va := sl.read a
    let n := bits (sl.read v) 31 0
    match s.translate c sl.asid sl.cls .load va with
    | .error e => .trap e va
    | .ok x =>
      let s := s.fillTlb c x
      if n = 0 ∨ 2 ^ x.bits < va.toNat % 2 ^ x.bits + n then s.gives k d stBADREC
      else
        match s.freeGuards c with
        | [] => s.gives k d stNORES
        | i :: _ =>
          let r := guardRange sl.asid va x
          (s.modCore c fun co =>
            { co with guards := co.guards ++ [⟨i, r.1, r.2, n, write, none, c, sl.ctxid⟩] }).gives k d
              (BitVec.ofNat 64 i)

/-- RGSET_RD (R207). -/
def execRgsetRd (d : Dst) (a v : Src) (s : State) : Host.Outcome State Fault Refusal := s.rgset false d a v

/-- RGSET_WR (R207). -/
def execRgsetWr (d : Dst) (a v : Src) (s : State) : Host.Outcome State Fault Refusal := s.rgset true d a v

/-- RGSET_CLR (R207). -/
def execRgsetClr (d : Dst) (a : Src) (s : State) : Host.Outcome State Fault Refusal :=
  s.run { feats := [0] } 4 2 0 fun k =>
    let sl := s.slot k
    let c := keyCore k
    let i := bits (sl.read a) 3 0
    let mine (g : Guard) : Bool :=
      decide (g.idx = i) && g.cmd.isNone && decide (g.core = c) && decide (g.ctxid = sl.ctxid)
    if (s.core c).guards.any mine then
      (s.modCore c fun co => { co with guards := co.guards.filter fun g => !mine g }).gives k d 0
    else s.gives k d stNOOBJ

end Sys2Proof.Machine
end

