-- ==== Sys2Proof/Machine/Numbers.lean ====
section
/-! DEFINITION. Number formats, exact values, rounding and the keyed generator (R21 to R47), and the
functions of VXF (R290). -/

namespace Sys2Proof.Machine

/-! ### Formats (R21, R22) -/

abbrev fFP32 : Nat := 1
abbrev fBF16 : Nat := 2
abbrev fFP16 : Nat := 3
abbrev fE4M3 : Nat := 4
abbrev fE5M2 : Nat := 5
abbrev fVF4 : Nat := 9
abbrev fMXINT8 : Nat := 10
abbrev fI8 : Nat := 11
abbrev fI32 : Nat := 12
abbrev fACC96 : Nat := 13
abbrev fBSI16 : Nat := 14
abbrev fN8 : Nat := 15

/-- Bits of an element (R21). -/
def elemBits (fmt : Nat) : Nat := [0, 32, 16, 16, 8, 8, 6, 6, 4, 4, 8, 8, 32, 96, 16, 8].getD fmt 0

/-- Elements of a scale block, 0 for a format without a scale plane (R22, R29, R35). -/
def blockLen (fmt : Nat) : Nat :=
  if fmt = fVF4 then 8 else if (4 ≤ fmt ∧ fmt ≤ 10) ∨ fmt = fBSI16 then 32 else 0

/-! ### Exact values -/

/-- A positive magnitude before rounding: m ÷ d · 2^e. -/
structure Ratio where
  m : Nat
  d : Nat
  e : Int
  deriving DecidableEq, Repr

/-- A result and the flags that it raises. -/
abbrev Flagged (α : Type) := α × BitVec 7

/-- An integer times a power of two. -/
def Val.ofInt (n : Int) (e : Int) : Val := .fin (decide (n < 0)) n.natAbs e

/-- The signed significand. -/
def signed (neg : Bool) (m : Nat) : Int := if neg then -(m : Int) else m

/-- The two significands of two values at the lower of their exponents. -/
def aligned (neg₁ : Bool) (m₁ : Nat) (e₁ : Int) (neg₂ : Bool) (m₂ : Nat) (e₂ : Int) : Int × Int × Int :=
  let e := min e₁ e₂
  (signed neg₁ m₁ * 2 ^ (e₁ - e).toNat, signed neg₂ m₂ * 2 ^ (e₂ - e).toNat, e)

/-- A two's-complement number of `w` bits. -/
def twos (w v : Nat) : Int := if 2 ^ (w - 1) ≤ v % 2 ^ w then (v % 2 ^ w : Nat) - 2 ^ w else (v % 2 ^ w : Nat)

/-- The low `w` bits of an integer. -/
def lowBits (w : Nat) (n : Int) : Nat := (n % 2 ^ w).toNat

def Val.isFin : Val → Bool
  | .fin _ _ _ => true
  | _ => false

def Val.isNan : Val → Bool
  | .nan _ => true
  | _ => false

/-- NV for a signalling NaN (R25). -/
def Val.snan : Val → BitVec 7
  | .nan true => flNV
  | _ => 0

def Val.isSnan : Val → Bool
  | .nan sig => sig
  | _ => false

def Val.isZero : Val → Bool
  | .fin _ m _ => m = 0
  | _ => false

def Val.isNeg : Val → Bool
  | .fin s _ _ => s
  | .inf s => s
  | .nan _ => false

def Val.neg : Val → Val
  | .fin s m e => .fin (!s) m e
  | .inf s => .inf (!s)
  | .nan g => .nan g

def Val.abs : Val → Val
  | .fin _ m e => .fin false m e
  | .inf _ => .inf false
  | .nan g => .nan g

/-- A value times a power of two. -/
def Val.scale (v : Val) (k : Int) : Val :=
  match v with
  | .fin s m e => .fin s m (e + k)
  | v => v

/-- The sum, with the sign that a rounding mode gives an exact zero (R24, R25, R272). -/
def Val.add (mode : Nat) (x y : Val) : Flagged Val :=
  match x, y with
  | .nan _, _ => (.nan false, x.snan ||| y.snan)
  | _, .nan _ => (.nan false, y.snan)
  | .inf s, .inf t => if s = t then (.inf s, 0) else (.nan false, flNV)
  | .inf s, _ => (.inf s, 0)
  | _, .inf t => (.inf t, 0)
  | .fin s m e, .fin t n f =>
    let a := aligned s m e t n f
    let sum := a.1 + a.2.1
    if sum = 0 then
      (.fin (if m = 0 ∧ n = 0 ∧ s = t then s else decide (mode = 2)) 0 0, 0)
    else (.ofInt sum a.2.2, 0)

/-- The product (R25, R272). -/
def Val.mul (x y : Val) : Flagged Val :=
  match x, y with
  | .nan _, _ => (.nan false, x.snan ||| y.snan)
  | _, .nan _ => (.nan false, y.snan)
  | .fin s m e, .fin t n f => (.fin (s != t) (m * n) (e + f), 0)
  | x, y => if x.isZero ∨ y.isZero then (.nan false, flNV) else (.inf (x.isNeg != y.isNeg), 0)

/-- The order of two values, nothing where one is a NaN; −0 equals +0 (R24, R25). -/
def Val.cmp (x y : Val) : Option Ordering :=
  match x, y with
  | .nan _, _ => none
  | _, .nan _ => none
  | .inf s, .inf t => some (if s = t then .eq else if s then .lt else .gt)
  | .inf s, _ => some (if s then .lt else .gt)
  | _, .inf t => some (if t then .gt else .lt)
  | .fin s m e, .fin t n f =>
    let a := aligned s m e t n f
    some (if a.1 < a.2.1 then .lt else if a.1 = a.2.1 then .eq else .gt)

/-- floor2 of R32: the greatest k with k · 2^α ≤ x, and whether non-zero bits were discarded. -/
def floor2 (neg : Bool) (m : Nat) (e α : Int) : Int × Bool :=
  if α ≤ e then (signed neg m * 2 ^ (e - α).toNat, false)
  else
    let d := 2 ^ (α - e).toNat
    (signed neg m / (d : Int), decide (m % d ≠ 0))

/-- floor(log2) of a positive significand times 2^e. -/
def logOf (m : Nat) (e : Int) : Int := Nat.log2 m + e

/-- floor(log2) of a positive ratio. -/
def Ratio.log (r : Ratio) : Int :=
  let k : Int := (Nat.log2 r.m : Int) - Nat.log2 r.d
  let ok := if 0 ≤ k then decide (r.d * 2 ^ k.toNat ≤ r.m) else decide (r.d ≤ r.m * 2 ^ (-k).toNat)
  (if ok then k else k - 1) + r.e

/-! ### Rounding (R36, R37) -/

/-- A positive magnitude in units of 2^u under a rounding mode; `t` is the threshold of R45. -/
def Ratio.round (r : Ratio) (mode : Nat) (neg : Bool) (t : Nat) (u : Int) : Nat × Bool :=
  let a := if u ≤ r.e then r.m * 2 ^ (r.e - u).toNat else r.m
  let b := if u ≤ r.e then r.d else r.d * 2 ^ (u - r.e).toNat
  let n := a / b
  let rest := a % b
  if rest = 0 then (n, false)
  else
    let up := match mode with
      | 0 => decide (b < 2 * rest) || (decide (2 * rest = b) && decide (n % 2 = 1))
      | 1 => false
      | 2 => neg
      | 3 => !neg
      | _ => decide (256 ≤ 256 * rest / b + t)
    (if up then n + 1 else n, true)

/-- How a conversion rounds: mode, saturating form, threshold. -/
structure Rounding where
  mode : Nat
  sat  : Bool
  t    : Nat
  deriving DecidableEq, Repr

/-- A floating format: exponent and fraction bits and bias (R23, R27). -/
structure FloatFmt where
  ebits : Nat
  mbits : Nat
  bias  : Nat
  deriving DecidableEq, Repr

/-- The floating formats; VF4 elements are E2M1 (R29). -/
def floatFmt (fmt : Nat) : Option FloatFmt :=
  match fmt with
  | 1 => some ⟨8, 23, 127⟩
  | 2 => some ⟨8, 7, 127⟩
  | 3 => some ⟨5, 10, 15⟩
  | 4 => some ⟨4, 3, 7⟩
  | 5 => some ⟨5, 2, 15⟩
  | 6 => some ⟨3, 2, 3⟩
  | 7 => some ⟨2, 3, 1⟩
  | 8 => some ⟨2, 1, 1⟩
  | 9 => some ⟨2, 1, 1⟩
  | _ => none

/-- Whether the format is FP32, BF16 or FP16 (R23). -/
def isIeee (fmt : Nat) : Bool := decide (1 ≤ fmt) && decide (fmt ≤ 3)

/-- The code of the largest finite magnitude (R23, R27). -/
def FloatFmt.largest (f : FloatFmt) (fmt : Nat) : Nat :=
  if isIeee fmt ∨ fmt = fE5M2 then (2 ^ f.ebits - 1) * 2 ^ f.mbits - 1
  else if fmt = fE4M3 then 2 ^ (f.ebits + f.mbits) - 2
  else 2 ^ (f.ebits + f.mbits) - 1

/-- Decodes a floating code (R23, R25, R27). -/
def FloatFmt.decode (f : FloatFmt) (fmt code : Nat) : Val :=
  let neg := decide (code / 2 ^ (f.ebits + f.mbits) % 2 = 1)
  let mag := code % 2 ^ (f.ebits + f.mbits)
  let e := mag / 2 ^ f.mbits
  let m := mag % 2 ^ f.mbits
  if f.largest fmt < mag then
    if (isIeee fmt ∨ fmt = fE5M2) ∧ m = 0 then .inf neg
    else .nan ((isIeee fmt || decide (fmt = fE5M2)) && decide (m < 2 ^ (f.mbits - 1)))
  else if e = 0 then .fin neg m (1 - f.bias - f.mbits)
  else .fin neg (2 ^ f.mbits + m) (e - f.bias - f.mbits)

/-- The canonical quiet NaN (R25). -/
def FloatFmt.qnan (f : FloatFmt) : Nat := (2 ^ f.ebits - 1) * 2 ^ f.mbits + 2 ^ (f.mbits - 1)

/-- The code of an infinity. -/
def FloatFmt.infinity (f : FloatFmt) (neg : Bool) : Nat :=
  neg.toNat * 2 ^ (f.ebits + f.mbits) + (2 ^ f.ebits - 1) * 2 ^ f.mbits

/-- A finite magnitude rounded into a floating format (R36 to R38, R42). -/
def FloatFmt.encode (f : FloatFmt) (fmt : Nat) (o : Rounding) (neg : Bool) (r : Ratio) : Flagged Nat :=
  let sign := neg.toNat * 2 ^ (f.ebits + f.mbits)
  if r.m = 0 then (sign, 0)
  else
    let emin : Int := 1 - f.bias
    let l := r.log
    let u := max l emin - f.mbits
    let n := r.round o.mode neg o.t u
    let code := ((u + f.mbits + f.bias - 1) * 2 ^ f.mbits + n.1).toNat
    let tiny := decide (l < emin) && decide ((r.round o.mode neg o.t (l - f.mbits)).1 < 2 ^ (emin - l + f.mbits).toNat)
    if f.largest fmt < code then
      if o.sat ∨ !isIeee fmt then (sign + f.largest fmt, flOF ||| flIX ||| flSAT)
      else if o.mode = 1 ∨ (o.mode = 2 ∧ !neg) ∨ (o.mode = 3 ∧ neg) then (sign + f.largest fmt, flOF ||| flIX)
      else (f.infinity neg, flOF ||| flIX)
    else (sign + code, (if n.2 then flIX else 0) ||| (if n.2 && tiny then flUF else 0))

/-- A finite magnitude rounded to an integer between limits (R38, R42, log 71). -/
def encodeInt (lo hi : Int) (o : Rounding) (neg : Bool) (r : Ratio) : Flagged Int :=
  let n := r.round o.mode neg o.t 0
  let v := signed neg n.1
  if v < lo then (lo, flOF ||| flSAT ||| flIX)
  else if hi < v then (hi, flOF ||| flSAT ||| flIX)
  else (v, if n.2 then flIX else 0)

/-- Limits of the integer types, of MXINT8's codes and of BSI16's elements (R28, R30, R35). -/
def intLimits (fmt : Nat) : Int × Int :=
  if fmt = fI8 then (-128, 127)
  else if fmt = fI32 then (-2147483648, 2147483647)
  else if fmt = fN8 then (0, 255)
  else if fmt = fMXINT8 then (-127, 127)
  else (-32768, 32767)

/-- Decodes an element without its scales (R23 to R31, R35). -/
def decodeElem (fmt code : Nat) : Val :=
  match floatFmt fmt with
  | some f => f.decode fmt code
  | none =>
    if fmt = fMXINT8 then .ofInt (twos 8 code) (-6)
    else if fmt = fN8 then .ofInt (code % 256 : Nat) 0
    else .ofInt (twos (elemBits fmt) code) 0

/-- Converts a value into an element of an unscaled format, or an already scaled one into an element of a
scaled format (R36 to R39, R42). DESIGN CHOICE: MXINT8 and BSI16 elements count as integer targets, which
never raise UF (log 71). -/
def encodeRatio (fmt : Nat) (o : Rounding) (neg : Bool) (r : Ratio) : Flagged Nat :=
  match floatFmt fmt with
  | some f => f.encode fmt o neg r
  | none =>
    let r := if fmt = fMXINT8 then { r with e := r.e + 6 } else r
    let v := encodeInt (intLimits fmt).1 (intLimits fmt).2 o neg r
    (lowBits (elemBits fmt) v.1, v.2)

/-- A conversion into an unscaled format, with R39 for special values. -/
def encodeVal (fmt : Nat) (o : Rounding) (v : Val) : Flagged Nat :=
  match v with
  | .fin neg m e => encodeRatio fmt o neg ⟨m, 1, e⟩
  | .inf neg =>
    match floatFmt fmt with
    | some f => (f.infinity neg, 0)
    | none => (lowBits (elemBits fmt) (if neg then (intLimits fmt).1 else (intLimits fmt).2), flNV)
  | .nan sig =>
    match floatFmt fmt with
    | some f => (f.qnan, if sig then flNV else 0)
    | none => (0, flNV)

/-! ### Scales (R26, R29, R35, R40, R41) -/

/-- An E8M0 scale, or the exponent byte of BSI16 (R26, R35). -/
def decodeE8M0 (b : Nat) : Val := if b = 255 then .nan false else .fin false 1 ((b : Int) - 127)

/-- An E3M5 scale (R29). -/
def decodeE3M5 (b : Nat) : Val :=
  if b = 255 then .nan false
  else if b / 32 = 0 then .fin false (b % 32) (-8)
  else .fin false (32 + b % 32) ((b / 32 : Nat) - 9)

/-- The block scale of a format. -/
def decodeScale (fmt b : Nat) : Val := if fmt = fVF4 then decodeE3M5 b else decodeE8M0 b

/-- An element times its scales (R26, R29): a NaN or infinite scale makes it NaN, a signalling one where
the element or the band scale is signalling (R25). -/
def Val.scaled (v block band : Val) : Val :=
  match block, band with
  | .fin s m e, .fin t n f =>
    match v with
    | .fin u k g => .fin (u != (s != t)) (k * m * n) (g + e + f)
    | v => v
  | _, _ => .nan (v.isSnan || band.isSnan)

/-- emax of a scaled format (R40, R257, R291). -/
def emaxOf (fmt : Nat) : Int :=
  match fmt with
  | 4 => 8
  | 5 => 15
  | 6 => 4
  | 7 => 2
  | 8 => 2
  | 14 => 14
  | _ => 0

/-- floor(log2) of the largest magnitude of a block, nothing where all are zero. -/
def amaxLog (vs : List Val) : Option Int :=
  vs.foldl (fun a v =>
    match v with
    | .fin _ m e => if m = 0 then a else
      match a with
      | some k => some (max k (logOf m e))
      | none => some (logOf m e)
    | _ => a) none

/-- A block's codes, scale byte and flags. -/
structure Block where
  codes : List Nat
  scale : Nat
  flags : BitVec 7
  deriving DecidableEq, Repr

/-- Codes and flags of a list of flagged codes. -/
def gatherBlock (scale : Nat) (l : List (Flagged Nat)) : Block :=
  ⟨l.map (·.1), scale, l.foldl (fun f e => f ||| e.2) 0⟩

/-- The outcome of a block with a NaN or an infinity (R39). -/
def nanBlock (n : Nat) : Block := ⟨List.replicate n 0, 255, flNV⟩

/-- A conversion of a block into an MX format, MXINT8 or BSI16 (R40); `ts` are the thresholds. -/
def encodeBlock (fmt mode : Nat) (ts : List Nat) (vs : List Val) : Block :=
  if vs.any fun v => !v.isFin then nanBlock vs.length
  else
    let byte : Int := match amaxLog vs with
      | none => 0
      | some l => max 0 (min 254 (l - emaxOf fmt + 127))
    gatherBlock byte.toNat ((vs.zip ts).map fun e =>
      encodeVal fmt ⟨mode, true, e.2⟩ (e.1.scale (127 - byte)))

/-- Whether 6 · v · |b| reaches every magnitude of a block (R41). -/
def vf4Fits (code : Nat) (b : Val) (vs : List Val) : Bool :=
  let top := ((decodeE3M5 code).mul b.abs).1.mul (.fin false 6 0)
  vs.all fun v => match v.abs.cmp top.1 with
    | some .gt => false
    | some _ => true
    | none => false

/-- A conversion of a block of 8 into VF4 under a band scale (R39, R41). Under a band scale of zero a zero
keeps its sign and any other value becomes +0 (log 71). -/
def encodeVf4 (mode : Nat) (ts : List Nat) (band : Val) (vs : List Val) : Block :=
  if !band.isFin ∨ vs.any fun v => !v.isFin then nanBlock vs.length
  else if amaxLog vs = none then gatherBlock 0 (vs.map fun v => encodeVal fVF4 ⟨mode, true, 0⟩ v)
  else if band.isZero then
    gatherBlock 0 (vs.map fun v => if v.isZero then encodeVal fVF4 ⟨mode, true, 0⟩ v else (0, flIX ||| flUF))
  else
    let code := ((List.range 254).map (· + 1)).find? fun c => vf4Fits c band vs
    let code := code.getD 254
    gatherBlock code ((vs.zip ts).map fun e =>
      match e.1, decodeE3M5 code, band with
      | .fin s m x, .fin _ n y, .fin t k z =>
        if m = 0 then encodeVal fVF4 ⟨mode, true, e.2⟩ e.1
        else encodeRatio fVF4 ⟨mode, true, e.2⟩ (s != t) ⟨m, n * k, x - y - z⟩
      | _, _, _ => (0, 0))

/-! ### The keyed generator (R43 to R45) -/

/-- One round of R43. -/
def srgRound (n : Nat) (x : BitVec 32 × BitVec 32 × BitVec 32 × BitVec 32) :
    BitVec 32 × BitVec 32 × BitVec 32 × BitVec 32 :=
  let (a, b, c, d) := x
  let a := a + b + (0x243F6A88#32 + BitVec.ofNat 32 n * 0x13198A2E#32)
  let d := (d ^^^ a).rotateLeft 16
  let c := c + d
  let b := (b ^^^ c).rotateLeft 12
  let a := a + b
  let d := (d ^^^ a).rotateLeft 8
  let c := c + d
  let b := (b ^^^ c).rotateLeft 7
  (a, b, c, d)

/-- The keyed generator (R43). -/
def srg (a b c d : BitVec 32) : BitVec 64 :=
  let (a, b, c, d) := (List.range 6).foldl (fun x n => srgRound n x) (a, b, c, d)
  (a ^^^ c) ++ (b ^^^ d)

/-- What a keyed rounding draws from: the destination's TID, ROW0 and COL0, HSEED and STEP (R44). -/
structure Key where
  tid   : BitVec 32
  row0  : BitVec 32
  col0  : BitVec 32
  hseed : BitVec 32
  step  : BitVec 32
  deriving DecidableEq, Repr

/-- The threshold of local element (r, c) (R44, R45). -/
def Key.threshold (k : Key) (r c : Nat) : Nat :=
  let col := k.col0 + BitVec.ofNat 32 c
  (srg k.tid k.step (k.row0 + BitVec.ofNat 32 r) (col >>> 3)).toNat / 256 ^ (col.toNat % 8) % 256

/-! ### The Hadamard transform (R46, R47) -/

/-- (−1) to the number of ones of i & k. -/
def walshNeg (i k : Nat) : Bool := decide (((List.range 5).filter fun j => (i &&& k).testBit j).length % 2 = 1)

/-- A value with its sign changed where `n` holds. -/
def Val.negIf (v : Val) (n : Bool) : Val := if n then v.neg else v

/-- A sum of values from the first on. -/
def sumVals (mode : Nat) : List Val → Flagged Val
  | [] => (.fin false 0 0, 0)
  | v :: vs => vs.foldl (fun a x => let r := Val.add mode a.1 x; (r.1, a.2 ||| r.2)) (v, v.snan)

/-- The sign flips s_k of a block (R46). -/
def signFlip (seed row block : BitVec 32) (k : Nat) : Bool :=
  (srg seed 0xFFFFFFFF#32 row block).getLsbD k

/-- The forward transform of 32 values (R46). -/
def hadamard (mode : Nat) (seed row block : BitVec 32) (vs : List Val) : Flagged (List Val) :=
  let z := (List.range 32).map fun k => (vs.getD k (.fin false 0 0)).negIf (signFlip seed row block k)
  let ys := (List.range 32).map fun i =>
    sumVals mode ((List.range 32).map fun k => (z.getD k (.fin false 0 0)).negIf (walshNeg i k))
  (ys.map fun y => y.1.scale (-3), ys.foldl (fun f y => f ||| y.2) 0)

/-- The inverse transform of 32 values (R47). The sign s_k stands in every term of the sum, so that a sum
that cancels has the zero that R24 gives a sum (log 71). -/
def hadamardInv (mode : Nat) (seed row block : BitVec 32) (ys : List Val) : Flagged (List Val) :=
  let xs := (List.range 32).map fun k =>
    sumVals mode ((List.range 32).map fun i =>
      (ys.getD i (.fin false 0 0)).negIf (walshNeg k i != signFlip seed row block k))
  (xs.map fun x => x.1.scale (-2), xs.foldl (fun f y => f ||| y.2) 0)

/-- Splits a list into blocks of `n`. -/
def blocksOf {α : Type} (n count : Nat) (l : List α) : List (List α) :=
  (List.range count).map fun b => (l.drop (b * n)).take n

/-- Applies a transform to each block of 32 of a row; the first block has index `block`. -/
def transformRow (f : BitVec 32 → List Val → Flagged (List Val)) (block : BitVec 32) (vs : List Val) :
    Flagged (List Val) :=
  let bs := ((List.range (vs.length / 32)).zip (blocksOf 32 (vs.length / 32) vs)).map fun e =>
    f (block + BitVec.ofNat 32 e.1) e.2
  (bs.flatMap (·.1), bs.foldl (fun a b => a ||| b.2) 0)

/-! ### Functions of VXF (R290)

The transcendental results are computed to 700 fraction bits, far beyond what one rounding into FP32 or
BF16 looks at, and carry a bit below them, since none of them is representable (log 28). -/

/-- Fraction bits of the working precision. -/
abbrev fracBits : Nat := 700

/-- A sum of `n` terms of a series: `f` gives term k. -/
def seriesSum (n : Nat) (f : Nat → Int) : Int := (List.range n).foldl (fun a k => a + f k) 0

/-- atanh(1/q), in units of 2^-p. -/
def atanhInv (p q : Nat) : Int := seriesSum (p / 2 + 2) fun k => 2 ^ p / (((2 * k + 1) * q ^ (2 * k + 1) : Nat) : Int)

/-- atan(1/q), in units of 2^-p. -/
def atanInv (p q : Nat) : Int :=
  seriesSum (p / 2 + 2) fun k => (if k % 2 = 0 then 1 else -1) * (2 ^ p / (((2 * k + 1) * q ^ (2 * k + 1) : Nat) : Int))

/-- ln 2 in units of 2^-p. -/
def lnTwo (p : Nat) : Int := 2 * atanhInv (p + 20) 3 / 2 ^ 20

/-- π in units of 2^-p. -/
def piFix (p : Nat) : Int := (16 * atanInv (p + 20) 5 - 4 * atanInv (p + 20) 239) / 2 ^ 20

/-- The sums Σ ±x^j/j! over j = first, first + step, … of a fixed-point x. -/
def powerSeries (p : Nat) (x : Int) (first step : Nat) (alternate : Bool) : Int :=
  let go := (List.range 300).foldl (fun (a : Int × Int) j =>
    let used := decide (first ≤ j) && decide ((j - first) % step = 0)
    let sign : Int := if alternate ∧ (j - first) / step % 2 = 1 then -1 else 1
    (if used then a.1 + sign * a.2 else a.1, a.2 * x / (((j + 1 : Nat) : Int) * 2 ^ p))) (0, 2 ^ p)
  go.1

/-- A value strictly between v and v + 1 in units of 2^-p. -/
def between (p : Nat) (v : Int) : Val := .ofInt (2 * v + 1) (-(p : Int) - 1)

/-- A finite value in units of 2^-p, where it is a whole number of them; its floor otherwise. -/
def fixed (p : Nat) (neg : Bool) (m : Nat) (e : Int) : Int := (floor2 neg m e (-(p : Int))).1

/-- 2^a of a finite a (R290). Beyond 2000 in magnitude every result overflows or underflows alike. -/
def exp2Val (neg : Bool) (m : Nat) (e : Int) : Val :=
  let n := floor2 neg m e 0
  let k := max (-2000) (min 2000 n.1)
  if !n.2 then .fin false 1 k
  else
    let frac := fixed fracBits neg m e - n.1 * 2 ^ fracBits
    (between fracBits (powerSeries fracBits (frac * lnTwo fracBits / 2 ^ fracBits) 0 1 false)).scale k

/-- log2 of a positive finite value (R290): ln y = 2 atanh((y − 1)/(y + 1)) for the significand y. -/
def log2Val (m : Nat) (e : Int) : Val :=
  let l := logOf m e
  let one := 2 ^ Nat.log2 m
  if m = one then .ofInt l 0
  else
    let p := fracBits
    let z : Int := ((m - one : Nat) : Int) * 2 ^ p / ((m + one : Nat) : Int)
    let z2 := z * z / 2 ^ p
    let sum := (List.range 300).foldl (fun (a : Int × Int) k =>
      (a.1 + a.2 / ((2 * k + 1 : Nat) : Int), a.2 * z2 / 2 ^ p)) (0, z)
    between p (l * 2 ^ p + 2 * sum.1 * 2 ^ p / lnTwo p)

/-- The integer square root. -/
def isqrt (n : Nat) : Nat :=
  ((List.range (Nat.log2 n / 2 + 1)).reverse).foldl (fun r b =>
    if (r + 2 ^ b) * (r + 2 ^ b) ≤ n then r + 2 ^ b else r) 0

/-- 1 ÷ √a of a positive finite value (R290): exact where it is representable at the working precision. -/
def rsqrtVal (m : Nat) (e : Int) : Val :=
  let m' := if e % 2 = 0 then m else 2 * m
  let e' := if e % 2 = 0 then e else e - 1
  let t := 2 ^ (2 * fracBits) / m'
  let n := isqrt t
  let v : Val := if 2 ^ (2 * fracBits) % m' = 0 ∧ n * n = t then .ofInt n (-(fracBits : Int)) else between fracBits n
  v.scale (-(e' / 2))

/-- The quadrant of a non-negative finite angle, and the rest in units of 2^-700 (R290). -/
def reduceAngle (m : Nat) (e : Int) : Int × Int :=
  let p := 900
  let half := piFix p
  let a := (floor2 false m (e + 1) (-(p : Int))).1
  (a / half, a % half / 2 ^ (p - fracBits + 1))

/-- sin or cos of a non-negative angle, not zero (R290). -/
def sinVal (quarter : Int) (m : Nat) (e : Int) : Val :=
  let r := reduceAngle m e
  let q := (r.1 + quarter) % 4
  let v := if q % 2 = 0 then between fracBits (powerSeries fracBits r.2 1 2 true)
    else between fracBits (powerSeries fracBits r.2 0 2 true)
  if 2 ≤ q then v.neg else v

/-- VXF F of a value, rounded once into a format (R290). -/
def vxfVal (f fmt : Nat) (o : Rounding) (x : Val) : Flagged Nat :=
  let nan : Flagged Nat := ((floatFmt fmt).elim 0 FloatFmt.qnan, flNV)
  match x with
  | .nan sig => encodeVal fmt o (.nan sig)
  | .inf neg =>
    match f with
    | 0 => encodeVal fmt o (if neg then .fin false 0 0 else .inf false)
    | 1 => if neg then nan else encodeVal fmt o (.inf false)
    | 2 => encodeVal fmt o (.fin neg 0 0)
    | 3 => if neg then nan else encodeVal fmt o (.fin false 0 0)
    | _ => nan
  | .fin neg m e =>
    match f with
    | 0 => if m = 0 then encodeVal fmt o (.fin false 1 0) else encodeVal fmt o (exp2Val neg m e)
    | 1 => if m = 0 then encodeVal fmt o (.inf true) else if neg then nan else encodeVal fmt o (log2Val m e)
    | 2 => if m = 0 then encodeVal fmt o (.inf neg) else encodeRatio fmt o neg ⟨1, m, -e⟩
    | 3 => if m = 0 then encodeVal fmt o (.inf neg) else if neg then nan else encodeVal fmt o (rsqrtVal m e)
    | 4 => if m = 0 then encodeVal fmt o x else encodeVal fmt o ((sinVal 0 m e).negIf neg)
    | _ => if m = 0 then encodeVal fmt o (.fin false 1 0) else encodeVal fmt o (sinVal 1 m e)

end Sys2Proof.Machine
end

