-- ==== Sys2Proof/Machine/Tensors.lean ====
section
/-! DEFINITION. Tensor handles and their checks (R97 to R99), the planes of engine commands (R247, R277),
and reading and writing rows of elements with their scales (R22, R26 to R31, R40, R41, R243). -/

namespace Sys2Proof.Machine

/-! ### Handles -/

/-- A tensor handle (R97). -/
structure Handle where
  base    : Word
  fmt     : Nat
  slay    : Nat
  had     : Bool
  spr     : Bool
  srk     : Bool
  val     : Bool
  rows    : Nat
  cols    : Nat
  rstride : Nat
  zero    : Nat
  tid     : BitVec 32
  row0    : BitVec 32
  col0    : BitVec 32
  hseed   : BitVec 32
  deriving DecidableEq, Repr

/-- The fields of a handle register (R97). -/
def handleFrom (h : BitVec 256) : Handle where
  base := BitVec.ofNat 64 (bits h 51 0)
  fmt := bits h 55 52
  slay := bits h 59 56
  had := bit h 60
  spr := bit h 61
  srk := bit h 62
  val := bit h 63
  rows := bits h 79 64
  cols := bits h 95 80
  rstride := bits h 119 96
  zero := bits h 127 120
  tid := h.extractLsb' 128 32
  row0 := h.extractLsb' 160 32
  col0 := h.extractLsb' 192 32
  hseed := h.extractLsb' 224 32

/-- A handle of slot `k`. -/
def Slot.handle (sl : Slot) (t : HandleNo) : Handle := handleFrom (sl.t[t.toNat]'t.isLt)

/-- Bytes of a row of `cols` elements; three lines for a sparse handle (R98, R243). -/
def rowLen (fmt cols : Nat) (spr : Bool) : Nat := if spr then 384 else (cols * elemBits fmt + 7) / 8

/-- Blocks of a row (R99). -/
def blockCount (fmt cols : Nat) : Nat := if blockLen fmt = 0 then 0 else cols / blockLen fmt

/-- An even number not below `n`. -/
def evenUp (n : Nat) : Nat := (n + 1) / 2 * 2

/-- Bytes of a scale plane, with the band scales of VF4 (R99). -/
def scaleLen (fmt slay rows cols rowb : Nat) : Nat :=
  if slay = 0 then 0
  else if fmt = fVF4 then evenUp (rows * blockCount fmt cols) + 2 * ((rowb + rows - 1) / 64 + 1)
  else rows * blockCount fmt cols

def Handle.rowBytes (h : Handle) : Nat := rowLen h.fmt h.cols h.spr
def Handle.rowb (h : Handle) : Nat := h.row0.toNat % 64

/-- Bytes from element (0, 0) to the end of the last row. -/
def Handle.span (h : Handle) : Nat := (h.rows - 1) * h.rstride + h.rowBytes

def Handle.scaleBytes (h : Handle) : Nat := scaleLen h.fmt h.slay h.rows h.cols h.rowb

/-- Virtual address of the scale plane (R99). -/
def Handle.scaleBase (h : Handle) : Word := h.base + BitVec.ofNat 64 (h.rows * h.rstride)

/-- The anchor of an ACC96 handle (R31, R97). -/
def Handle.anchor (h : Handle) : Int := twos 16 h.hseed.toNat

/-- Feature bits that a handle calls for, in ascending order (R98, R102). -/
def Handle.feats (h : Handle) : List Nat :=
  (if h.spr then [9] else []) ++ (if h.fmt = 6 ∨ h.fmt = 7 then [10] else []) ++
  (if h.fmt = fVF4 then [11] else []) ++ (if h.had then [12] else []) ++
  (if h.srk then [40] else []) ++ (if h.fmt = fBSI16 then [51] else [])

/-- The first feature of a list of handles that is clear (R85, R98). -/
def State.missing (s : State) (hs : List Handle) : Option Nat :=
  (hs.flatMap Handle.feats).find? fun f => !s.hasFeat f

/-- Whether SLAY suits the format (R99). -/
def slayOk (fmt slay : Nat) (spr : Bool) : Bool :=
  if spr then decide (slay = 0)
  else decide (slay ≤ 2) && (decide (slay ≠ 0) == decide (blockLen fmt ≠ 0))

/-- The conditions of R98 (R22, R47, R99); `keyed` for a destination of mode SRK. -/
def Handle.ok (h : Handle) (keyed : Bool) : Bool :=
  let blk := blockLen h.fmt
  h.val && decide (h.fmt ≠ 0) && decide (h.zero = 0) &&
  (decide (h.fmt ≠ fACC96) || decide (bits h.hseed 31 16 = 0)) &&
  decide (h.rows ≠ 0) && decide (h.cols ≠ 0) && decide (h.rowBytes ≤ h.rstride) &&
  decide (h.base.toNat % 4 = 0) && decide (h.rstride % 4 = 0) && slayOk h.fmt h.slay h.spr &&
  (decide (blk = 0) || (decide (h.col0.toNat % blk = 0) && decide (h.cols % blk = 0))) &&
  (!h.had || (decide (h.col0.toNat % 32 = 0) && decide (h.cols % 32 = 0) &&
    !(decide (h.fmt = fFP32) || decide (h.fmt = fI32) || decide (h.fmt = fACC96)))) &&
  (!keyed || h.srk)

/-! ### Planes -/

/-- A translated handle, as a command carries it (R247, R277): offsets in the core window. -/
structure Plane where
  eoff    : Nat
  soff    : Nat
  fmt     : Nat
  slay    : Nat
  had     : Bool
  spr     : Bool
  srk     : Bool
  rowb    : Nat
  rows    : Nat
  cols    : Nat
  rstride : Nat
  anchor  : Int
  deriving DecidableEq, Repr

/-- The plane of a handle at translated offsets. -/
def Handle.plane (h : Handle) (eoff soff : Nat) : Plane where
  eoff := eoff
  soff := soff
  fmt := h.fmt
  slay := h.slay
  had := h.had
  spr := h.spr
  srk := h.srk
  rowb := h.rowb
  rows := h.rows
  cols := h.cols
  rstride := h.rstride
  anchor := h.anchor

def Plane.rowBytes (p : Plane) : Nat := rowLen p.fmt p.cols p.spr
def Plane.span (p : Plane) : Nat := (p.rows - 1) * p.rstride + p.rowBytes
def Plane.scaleBytes (p : Plane) : Nat := scaleLen p.fmt p.slay p.rows p.cols p.rowb

/-- The conditions of R98 that a plane shows; `keyed` for a destination of mode SRK. -/
def Plane.ok (p : Plane) (keyed : Bool) : Bool :=
  let blk := blockLen p.fmt
  decide (p.fmt ≠ 0) && decide (p.rows ≠ 0) && decide (p.cols ≠ 0) && decide (p.rowBytes ≤ p.rstride) &&
  decide (p.eoff % 4 = 0) && decide (p.rstride % 4 = 0) && slayOk p.fmt p.slay p.spr &&
  (decide (blk = 0) || decide (p.cols % blk = 0)) &&
  (!p.had || (decide (p.cols % 32 = 0) && !(decide (p.fmt = fFP32) || decide (p.fmt = fI32) || decide (p.fmt = fACC96)))) &&
  (!keyed || p.srk)

/-- The conditions of R47 and R98 on COL0. -/
def Plane.aligned (p : Plane) (col0 : BitVec 32) : Bool :=
  (decide (blockLen p.fmt = 0) || decide (col0.toNat % blockLen p.fmt = 0)) && (!p.had || decide (col0.toNat % 32 = 0))

/-- A range of a core window: offset, bytes, and whether it is written. -/
abbrev Range := Nat × Nat × Bool

/-- The ranges of a plane (R252, R282). -/
def Plane.ranges (p : Plane) (write : Bool) : List Range :=
  (p.eoff, p.span, write) :: (if p.slay = 0 then [] else [(p.soff, p.scaleBytes, write)])

/-- The two words of an MXU plane (R247). -/
def Plane.words (p : Plane) : Word × Word :=
  (fields [(p.eoff, 0), (if p.fmt = fACC96 then lowBits 16 p.anchor else p.soff, 20), (p.fmt, 40),
     (p.spr.toNat, 44), (p.had.toNat, 45), (p.srk.toNat, 46), (p.rowb, 47)],
   fields [(p.rstride, 0), (p.slay, 24), (p.rows, 32), (p.cols, 48)])

/-- The plane that two words hold (R247). -/
def planeFrom (w0 w1 : Word) : Plane where
  eoff := bits w0 19 0
  soff := if bits w0 43 40 = fACC96 then 0 else bits w0 39 20
  fmt := bits w0 43 40
  slay := bits w1 27 24
  had := bit w0 45
  spr := bit w0 44
  srk := bit w0 46
  rowb := bits w0 52 47
  rows := bits w1 47 32
  cols := bits w1 63 48
  rstride := bits w1 23 0
  anchor := twos 16 (bits w0 35 20)

/-- The 96 bits of a vector plane (R277): of a stride, which one row does not use, the 18 bits of its field. -/
def Plane.vec (p : Plane) : Nat :=
  p.eoff + p.soff * 2 ^ 18 + p.fmt * 2 ^ 36 + p.slay * 2 ^ 40 + p.had.toNat * 2 ^ 42 + p.srk.toNat * 2 ^ 43 +
    p.rowb * 2 ^ 44 + p.rows * 2 ^ 50 + p.cols * 2 ^ 62 + p.rstride % 2 ^ 18 * 2 ^ 74

/-- The plane that a 96-bit field holds (R277). -/
def planeVec (v : BitVec 96) : Plane where
  eoff := bits v 17 0
  soff := bits v 35 18
  fmt := bits v 39 36
  slay := bits v 41 40
  had := bit v 42
  spr := false
  srk := bit v 43
  rowb := bits v 49 44
  rows := bits v 61 50
  cols := bits v 73 62
  rstride := bits v 91 74
  anchor := 0

/-! ### Reading rows -/

/-- The memory key of an offset in a core's window. -/
def State.winKey (s : State) (c off : Nat) : Nat := s.own (windowPa c off)

/-- A value and whether a byte that it was read from is poisoned. -/
abbrev Elem := Val × Bool

/-- Code `i` of `w` bits of a row held as a number (R22). -/
def codeAt (w n i : Nat) : Nat := n / 2 ^ (w * i) % 2 ^ w

/-- Bytes of a row that hold element `i`: the first and how many. -/
def elemBytes (w i : Nat) : Nat × Nat := (w * i / 8, (w * i + w - 1) / 8 - w * i / 8 + 1)

/-- The codes of row `r`, each with its poison. -/
def State.rowCodes (s : State) (c : Nat) (p : Plane) (r : Nat) : List (Nat × Bool) :=
  let key := s.winKey c (p.eoff + r * p.rstride)
  let w := elemBits p.fmt
  let n := s.loadLE key p.rowBytes
  (List.range p.cols).map fun i =>
    (codeAt w n i, s.poisoned (key + (elemBytes w i).1) (elemBytes w i).2)

/-- Offset in the scale plane of the scale of row `r`, block `b` (R99). -/
def Plane.scaleAt (p : Plane) (r b : Nat) : Nat :=
  p.soff + (if p.slay = 1 then r * blockCount p.fmt p.cols + b else b * p.rows + r)

/-- The scale byte of a block, with its poison. -/
def State.scaleOf (s : State) (c : Nat) (p : Plane) (r b : Nat) : Nat × Bool :=
  let key := s.winKey c (p.scaleAt r b)
  (s.loadLE key 1, s.poisoned key 1)

/-- The band scale of a row of VF4; 1 for other formats (R29, R99). -/
def State.bandOf (s : State) (c : Nat) (p : Plane) (r : Nat) : Elem :=
  if p.fmt = fVF4 then
    let key := s.winKey c (p.soff + evenUp (p.rows * blockCount p.fmt p.cols) + 2 * ((p.rowb + r) / 64))
    (decodeElem fBF16 (s.loadLE key 2), s.poisoned key 2)
  else (.fin false 1 0, false)

/-- The values of row `r`, with scales and band scales (R26 to R31, R35). -/
def State.rowValues (s : State) (c : Nat) (p : Plane) (r : Nat) : List Elem :=
  let codes := s.rowCodes c p r
  let blk := blockLen p.fmt
  if blk = 0 then
    codes.map fun e => ((decodeElem p.fmt e.1).scale (if p.fmt = fACC96 then p.anchor else 0), e.2)
  else
    let band := s.bandOf c p r
    let scales := (List.range (blockCount p.fmt p.cols)).map fun b => s.scaleOf c p r b
    ((List.range p.cols).zip codes).map fun e =>
      let sc := scales.getD (e.1 / blk) (0, false)
      ((decodeElem p.fmt e.2.1).scaled (decodeScale p.fmt sc.1) band.1, e.2.2 || sc.2 || band.2)

/-- The terms of row `r` of a sparse A handle (R243): logical element, value and poison. Elements that no
value stands at are zero. -/
def State.sparseRow (s : State) (c : Nat) (p : Plane) (r : Nat) : List (Nat × Elem) :=
  (List.range 3).flatMap fun i =>
    let key := s.winKey c (p.eoff + r * p.rstride + 128 * i)
    let positions := s.loadLE (key + 8) 24
    let bad := s.poisoned key 128
    let stored := (List.range 96).map fun v =>
      let sc := decodeE8M0 (s.loadLE (key + v / 16) 1)
      (192 * i + 4 * (v / 2) + codeAt 2 positions v,
       (decodeElem p.fmt (s.loadLE (key + 32 + v) 1)).scaled sc (.fin false 1 0), bad)
    let absent := (List.range 192).filter fun j => !stored.any fun t => t.1 = 192 * i + j
    stored ++ absent.map fun j => (192 * i + j, .fin false 0 0, false)

/-- The terms of a row of an MMA operand by logical element (R243, R254). -/
def State.rowTerms (s : State) (c : Nat) (p : Plane) (r : Nat) : List (Nat × Elem) :=
  if p.spr then s.sparseRow c p r else (List.range p.cols).zip (s.rowValues c p r)

/-! ### Writing rows -/

/-- A row of codes as a number (R22). -/
def packCodes (w : Nat) : List Nat → Nat
  | [] => 0
  | x :: xs => x % 2 ^ w + 2 ^ w * packCodes w xs

/-- The bytes that a row of codes is written as, each marked where it holds a byte of a poisoned element
(R262, R283). -/
def State.rowCells (s : State) (c : Nat) (p : Plane) (r : Nat) (codes : List (Nat × Bool)) : List Cell :=
  let key := s.winKey c (p.eoff + r * p.rstride)
  let w := elemBits p.fmt
  let n := packCodes w (codes.map (·.1))
  let bad := ((List.range codes.length).zip codes).filterMap fun e => if e.2.2 then some e.1 else none
  (List.range ((codes.length * w + 7) / 8)).map fun j =>
    (key + j, BitVec.ofNat 8 (n / 256 ^ j), bad.any fun i => 8 * j / w ≤ i && i ≤ (8 * j + 7) / w)

/-- A row after a conversion: codes, block scales and flags. -/
structure RowOut where
  codes  : List (Nat × Bool)
  scales : List (Nat × Bool)
  flags  : BitVec 7
  deriving DecidableEq, Repr

/-- The thresholds of a row, where the mode is keyed (R44, R45). -/
def thresholds (key : Key) (mode r cols : Nat) : List Nat :=
  if mode = 4 then (List.range cols).map (key.threshold r) else List.replicate cols 0

/-- Converts a row of exact values into a format other than ACC96 (R36 to R42); each result is marked
where a value that it depends on is. -/
def State.convertRow (s : State) (c : Nat) (p : Plane) (key : Key) (mode : Nat) (sat : Bool) (r : Nat)
    (vals : List Elem) : RowOut :=
  let ts := thresholds key mode r vals.length
  let blk := blockLen p.fmt
  if blk = 0 then
    let out := (vals.zip ts).map fun e => (encodeVal p.fmt ⟨mode, sat, e.2⟩ e.1.1, e.1.2)
    ⟨out.map fun o => (o.1.1, o.2), [], out.foldl (fun f o => f ||| o.1.2) 0⟩
  else
    let band := s.bandOf c p r
    let n := vals.length / blk
    let out := ((blocksOf blk n vals).zip (blocksOf blk n ts)).map fun e =>
      let vs := e.1.map (·.1)
      (if p.fmt = fVF4 then encodeVf4 mode e.2 band.1 vs else encodeBlock p.fmt mode e.2 vs,
       e.1.any (·.2) || band.2)
    ⟨out.flatMap fun o => o.1.codes.map fun x => (x, o.2), out.map fun o => (o.1.scale, o.2),
     out.foldl (fun f o => f ||| o.1.flags) 0⟩

/-- The bytes of a converted row with its scales. -/
def State.outCells (s : State) (c : Nat) (p : Plane) (r : Nat) (o : RowOut) : List Cell :=
  s.rowCells c p r o.codes ++ ((List.range o.scales.length).zip o.scales).map fun e =>
    (s.winKey c (p.scaleAt r e.1), BitVec.ofNat 8 e.2.1, e.2.2)

/-- A row of values after a transform of its blocks of 32 (R46, R47). -/
def transformElems (f : BitVec 32 → List Val → Flagged (List Val)) (key : Key) (vals : List Elem) :
    Flagged (List Elem) :=
  let t := transformRow f (key.col0 >>> 5) (vals.map (·.1))
  let bad := (blocksOf 32 (vals.length / 32) vals).flatMap fun b => List.replicate 32 (b.any (·.2))
  (t.1.zip bad, t.2)

/-- A row transformed for a destination with HAD (R46). -/
def hadOut (key : Key) (mode r : Nat) (vals : List Elem) : Flagged (List Elem) :=
  transformElems (fun b vs => hadamard mode key.hseed (key.row0 + BitVec.ofNat 32 r) b vs) key vals

/-- A row of a source with HAD transformed back (R47). -/
def hadIn (key : Key) (mode r : Nat) (vals : List Elem) : Flagged (List Elem) :=
  transformElems (fun b vs => hadamardInv mode key.hseed (key.row0 + BitVec.ofNat 32 r) b vs) key vals

end Sys2Proof.Machine
end

