-- ==== Sys2Proof/Machine/Engines.lean ====
section
/-! DEFINITION. What the engines share: issue and its waits (R91, R159, R180), range guards of commands
(R252, R282), frame owners (R250), faults of commands (R212, R214), and replies (R15, R248, R280). -/

namespace Sys2Proof.Machine

/-! ### Translating the planes of an instruction (R244, R275) -/

/-- Translates a range for slot `k`: its target type and core, then the page rule, of pages of at most
`2 ^ top` bytes. The offset in the core's window, or a cause with its address. -/
def State.xlateRange (s : State) (k : Nat) (kind : AccKind) (tt top : Nat) (va : Word) (n : Nat) :
    Except (BitVec 10 × Word) (State × Nat) :=
  match s.translate (keyCore k) (s.slot k).asid (s.slot k).cls kind va with
  | .error e => .error (e, va)
  | .ok x =>
    if x.tt ≠ tt ∨ windowCore x.pa ≠ some (keyCore k) then .error (0x106#10, va)
    else if 2 ^ min x.bits top < va.toNat % 2 ^ min x.bits top + n then .error (0x003#10, 0)
    else .ok (s.fillTlb (keyCore k) x, windowOff x.pa)

/-- Translates the element plane of a handle, then its scale plane. -/
def State.xlatePlane (s : State) (k : Nat) (kind : AccKind) (tt top : Nat) (h : Handle) :
    Except (BitVec 10 × Word) (State × Plane) :=
  match s.xlateRange k kind tt top h.base h.span with
  | .error e => .error e
  | .ok (s, eoff) =>
    if h.slay = 0 then .ok (s, h.plane eoff 0)
    else (s.xlateRange k kind tt top h.scaleBase h.scaleBytes).map fun r => (r.1, h.plane eoff r.2)

/-! ### Guards of commands (R16, R158, R159) -/

/-- Whether `n` entries of a core's range guard table are free. -/
def State.guardRoom (s : State) (c n : Nat) : Bool := decide (n ≤ (s.freeGuards c).length)

/-- Enters ranges of a core's window for a command, in the name of a context of that core. -/
def State.enterRanges (s : State) (c : Nat) (core : Nat) (ctxid : BitVec 32) (id : Nat) (rs : List Range) : State :=
  rs.foldl (fun s r => s.enterGuard c ⟨0, .phys, s.winKey c r.1, r.2.1, r.2.2, some id, core, ctxid⟩) s

/-- A command's entries leave every table. -/
def State.leaveGuards (s : State) (id : Nat) : State :=
  { s with cores := s.cores.map fun (e : Nat × Core) =>
      (e.1, { e.2 with guards := e.2.guards.filter fun g => g.cmd ≠ some id }) }

/-- Ranges without repetition; one that is also written is write-locked (R282). -/
def mergeRanges : List Range → List Range
  | [] => []
  | r :: rs =>
    let same (x : Range) : Bool := decide (x.1 = r.1) && decide (x.2.1 = r.2.1)
    let rest := mergeRanges rs
    if rest.any same then rest.map fun x => if same x then (x.1, x.2.1, x.2.2 || r.2.2) else x
    else r :: rest

/-- Whether a posted command with PRIV = 0 may name a range (R250): within one page of the window, which
its ASID owns with the right it needs. -/
def State.frameOk (s : State) (c : Nat) (asid : Nat) (r : Range) : Bool :=
  let page := r.1 / 0x10000
  let e := (s.core c).fown[ix 16 page]
  decide (page < 16) && decide (r.1 % 0x10000 + r.2.1 ≤ 0x10000) && decide (bits e 15 0 = asid) &&
    bit e (if r.2.2 then 17 else 16)

/-! ### Where a reply goes -/

/-- The reply target of a command (R15, R248, R276, R313). -/
structure ReplyTo where
  rkind  : Nat
  bead   : Fin 4
  slot   : Nat
  colour : Nat
  value  : Word
  core   : Nat
  off    : Nat
  mb     : Nat
  type   : Nat
  ctxid  : BitVec 32
  deriving DecidableEq, Repr

/-- The class of a context's slot (R171): live or saved. -/
def State.classOf (s : State) (c : Nat) (id : BitVec 32) : Nat :=
  match (s.ctx c id).map Ctx.loc with
  | some (.slot n) => (s.slot (slotKey c n.val)).cls.toNat
  | some (.saved area asid) => s.areaLoad c area asid 0x005 1 % 4
  | _ => 0

/-- The slot of a context becomes empty where it may, and a removed context leaves the map (R168, R227). -/
def State.settleCtx (s : State) (c : Nat) (id : BitVec 32) : State :=
  match (s.ctx c id).map Ctx.loc with
  | some (.slot n) => s.settle c n.val
  | some (.removed _) => s.settleAway c
  | _ => s

/-- The word of a flag-word reply. -/
def flagWord (value : Word) (cause : BitVec 10) : Word :=
  if cause = 0 then value else fields [(1, 63), (cause.toNat, 0)]

/-- The reply's own effect: bead, flag word or message of KIND 2 (R15). `core` is the core of the issuing
context; `a1` and `a2` are what a message carries beside VALUE. A command whose issuer has been removed has no
claimed entry any more and sends no message (R180). The discard of a message is told to an issuing context alone
(R180, R212). -/
def State.replyEffect (s : State) (core : Nat) (r : ReplyTo) (cmd : Cmd) (origin : BitVec 4)
    (cause : BitVec 10) (a1 a2 : Word) : State :=
  match r.rkind with
  | 0 => s.beadReply core r.ctxid r.bead
  | 1 => s.storeLE (s.winKey r.core (r.off / 8 * 8)) 8 (flagWord r.value cause).toNat
  | 2 =>
    if cmd.claimed.isNone then s
    else s.send core (s.header 2 core r.slot (s.classOf core r.ctxid) r.colour false true r.mb r.type) 0 0
      #v[r.value, a1, a2, 0, 0, 0] r.core r.ctxid
      (if cmd.issuer.isSome then .engine origin else .nothing) true
  | _ => s

/-! ### Faults of commands (R212, R214) -/

/-- What containment needs to know of the issuing context; nothing where no live or evicted actor has it. -/
def State.commandInfo (s : State) (i : Issuer) (slot : Nat) (cause : BitVec 10) (origin : BitVec 4)
    (addr : Word) : Option FaultInfo :=
  match (s.ctx i.core i.ctxid).map Ctx.loc with
  | some (.slot n) =>
    let k := slotKey i.core n.val
    if (s.slot k).status = .live then
      some ⟨k, cause, origin, false, i.fpc, addr, (s.slot k).asid, (s.slot k).jobcol, i.ctxid⟩
    else none
  | some (.saved area asid) =>
    some ⟨slotKey i.core slot, cause, origin, false, i.fpc, addr,
      BitVec.ofNat 16 (s.areaLoad i.core area asid 0x006 2), BitVec.ofNat 6 (s.areaLoad i.core area asid 0x01C 1), i.ctxid⟩
  | _ => none

/-- Writes FPC, FINST and FADDR of the issuing context (R211). -/
def State.recordCommand (s : State) (i : Issuer) (addr : Word) : State :=
  let s := s.atCtx i.core i.ctxid (fun sl => { sl with fpc := i.fpc, finst := i.finst, faddr := addr }) 0x398
    fun _ => i.fpc.setWidth 64
  match (s.ctx i.core i.ctxid).map Ctx.loc with
  | some (.saved area asid) => s.areaWords i.core area asid 0x3A0 [i.finst.setWidth 64, addr]
  | _ => s

/-- Whether LANE retries faulted commands of a cause; an aborted play has no command to re-execute, so that a
retry of it acts as ignore (R214, R343). -/
def State.laneRetries (s : State) (f : FaultInfo) : Bool :=
  decide (s.policy scLane (keyCore f.key) (areaOf f.cause) = 1) && decide (f.cause ≠ 0x330#10)

/-- Whether LANE re-executes a faulted command (R214): it has done so less than 3 times. -/
def State.retriesCommand (s : State) (f : FaultInfo) (tries : Nat) : Bool := s.laneRetries f && decide (tries < 3)

/-- The fault of a command that has replied: FENG, the fault CSRs and containment from LANE; a fault that
LANE has retried in vain passes to CORE (R212, R214). -/
def State.commandFault (s : State) (i : Issuer) (f : FaultInfo) : State :=
  let s := (s.credit i.core i.ctxid f.cause f.origin).recordCommand i f.addr
  s.contain f (levelsFrom (if s.laneRetries f then scCore else scLane))

/-- The retry of a command at LANE: recorded and told (R211, R216). -/
def State.commandRetry (s : State) (i : Issuer) (f : FaultInfo) (tries : Nat) : State :=
  ((s.recordCommand i f.addr).recordLevel f scLane 1 tries).faultNotice f scLane 1 false

/-- Ends a command (R50, R159, R212, R248): its guard entries leave, its flags are credited, the reply takes
effect, and a fault goes to the issuing context. -/
def State.endCommand (s : State) (core : Nat) (st : Started) (r : ReplyTo) (origin : BitVec 4) (a1 a2 : Word) : State :=
  let s := (s.leaveGuards st.cmd.id).creditFlags core r.ctxid st.flags
  let s := (s.replyEffect core r st.cmd origin st.cause a1 a2).settleCtx core r.ctxid
  if st.cause = 0 then s
  else match st.cmd.issuer with
    | none => s
    | some i => match s.commandInfo i r.slot st.cause origin st.addr with
      | none => s
      | some f => s.commandFault i f

/-- The fault info of a started command that LANE re-executes, if it does. -/
def State.lanesAgain (s : State) (st : Started) (slot : Nat) (origin : BitVec 4) : Option (Issuer × FaultInfo) :=
  if st.cause = 0 then none
  else st.cmd.issuer.bind fun i =>
    (s.commandInfo i slot st.cause origin st.addr).bind fun f =>
      if s.retriesCommand f st.cmd.tries then some (i, f) else none

/-- A command that is discarded before it starts (R222): its guards leave, its bead is lowered, its pool
entry is freed. -/
def State.discard (s : State) (core : Nat) (cmd : Cmd) (r : ReplyTo) : State :=
  let s := s.leaveGuards cmd.id
  let s := if r.rkind = 0 then s.beadReply core r.ctxid r.bead else s
  let s := match cmd.claimed with
    | some c => s.unclaim c
    | none => s
  s.settleCtx core r.ctxid

/-! ### Commands -/

/-- A new command of slot `k`. -/
def State.newCmd (s : State) (k : Nat) (w : Vector Word 8) (insn : Bool) (claimed : Option Nat)
    (spans : List (BitVec 16 × Nat × Nat)) : Cmd :=
  ⟨s.nextId, w, some (s.issuer k), insn, 0, true, claimed, spans⟩

/-- The virtual ranges that the issue of an instruction with this handle translates. -/
def Handle.spans (h : Handle) (asid : BitVec 16) : List (BitVec 16 × Nat × Nat) :=
  (asid, h.base.toNat, h.span) :: (if h.slay = 0 then [] else [(asid, h.scaleBase.toNat, h.scaleBytes)])

/-- Claims an entry of a core's pool for a message reply (R180). -/
def State.claim (s : State) (c : Nat) : State := s.modCore c fun co => { co with claimed := co.claimed + 1 }

/-- A command with guards and pool entry still to be taken takes what is free (R180, R249). -/
def State.prepare (s : State) (c : Nat) (core : Nat) (ctxid : BitVec 32) (cmd : Cmd) (rs : List Range)
    (r : ReplyTo) : State × Cmd :=
  let fits := !cmd.entered && s.guardRoom c rs.length
  let s := if fits then s.enterRanges c core ctxid cmd.id rs else s
  let pays := r.rkind = 2 ∧ cmd.claimed.isNone ∧ s.poolFree r.core 1
  let s := if pays then s.claim r.core else s
  (s, { cmd with entered := cmd.entered || fits, claimed := if pays then some r.core else cmd.claimed })

/-- Whether a command has all that it waits for at the head of its inbox. -/
def Cmd.prepared (cmd : Cmd) (r : ReplyTo) : Bool := cmd.entered && (decide (r.rkind ≠ 2) || cmd.claimed.isSome)

/-! ### Posted commands (R145, R178, R249) -/

/-- Nanoseconds until the next attempt after a refusal (R178). -/
def backoff (tries : Nat) : Nat := Nat.min (64 * 2 ^ Nat.min tries 5) 2000

/-- Whether retries stop (R178): 1,024 attempts or 1 ms. -/
def exhausted (tries born ns : Nat) : Bool := decide (1024 ≤ tries + 1) || decide (born + 1000000 ≤ ns)

/-- Clears a slot's post buffer. -/
def Slot.clearPost (sl : Slot) : Slot := { sl with postLine := none, postBuf := .replicate 8 0 }

/-- A post is accepted: the storing instruction completes (R145). -/
def State.postAccepted (s : State) (id : Nat) : State :=
  match s.postWaiter id with
  | some (k, _, len, cost) => (s.modSlot k Slot.clearPost).finishWait k len cost
  | none => s

/-- A post fails: the storing instruction traps precisely, with its address in FADDR (R145,
R178, R211). -/
def State.postFailed (s : State) (id : Nat) (cause : BitVec 10) : State :=
  match s.postWaiter id with
  | some (k, va, _, _) => s.takeTrap k cause va none
  | none => s

/-- Removes the n-th posted command. -/
def State.dropPost (s : State) (n : Nat) : State := s.modNet fun q => { q with posts := q.posts.eraseIdx n }

/-- A posted command fails: it leaves, its poster's counter is lowered again, and the store traps (R91, R145). -/
def State.failPost (s : State) (n : Nat) (p : Post) (cause : BitVec 10) : State :=
  let s := match p.poster with
    | some i => if postBead p.inbox p.w then s.beadReply i.core i.ctxid 2 else s
    | none => s
  (s.dropPost n).postFailed p.id cause

/-- A post to a full inbox: it is retried, or fails with 0x202 (R178). -/
def State.refusePost (s : State) (n : Nat) (p : Post) : State :=
  if exhausted p.tries p.born s.ns then s.failPost n p 0x202#10
  else s.modNet fun q =>
    { q with posts := putAt q.posts n { p with tries := p.tries + 1, due := some (s.ns + backoff p.tries) } }

/-- The n-th posted command, if it now reaches its inbox. -/
def State.arriving (s : State) (n : Nat) : Option Post :=
  match s.net.posts[n]? with
  | some p => if p.due.isNone then some p else none
  | none => none

end Sys2Proof.Machine
end

