-- ==== Sys2Proof/Machine/Matrix.lean ====
section
/-! DEFINITION. The matrix unit (R237 to R267): issue, commands and replies. -/

namespace Sys2Proof.Machine

/-! ### Roles of handles (R241 to R243) -/

/-- The role of a handle of a matrix major (R241). -/
inductive Role where
  | tile
  | a
  | b
  | dst
  | mult
  | image
  | addr
  | source
  deriving DecidableEq, Repr

/-- The width class of an MMA operand format, 0 for none (R242). -/
def widthClass (fmt : Nat) : Nat :=
  if fmt = fBF16 ∨ fmt = fFP16 then 16
  else if fmt = fE4M3 ∨ fmt = fE5M2 ∨ fmt = fMXINT8 ∨ fmt = fI8 ∨ fmt = fN8 then 8
  else if fmt = 6 ∨ fmt = 7 then 6
  else if fmt = 8 ∨ fmt = fVF4 then 4
  else 0

/-- K elements of an operand row of a width class (R242). -/
def classK (cls : Nat) : Nat := if cls = 16 then 192 else if cls = 8 then 384 else if cls = 6 then 512 else 768

/-- Whether a plane suits its role (R240, R241, R243). Only A may be sparse (log 27). -/
def Role.ok (role : Role) (p : Plane) : Bool :=
  let few := decide (p.rows ≤ 32)
  match role with
  | .tile => decide (p.fmt = fACC96) && decide (p.rows = 32) && decide (p.cols = 32) && decide (p.rstride = 384) &&
      decide (p.slay = 0) && !p.had && !p.spr && !p.srk && decide (p.eoff % 0x10000 % 0x3000 = 0) &&
      decide (p.eoff % 0x10000 < 0xC000)
  | .a => few && decide (widthClass p.fmt ≠ 0) &&
      (if p.spr then (decide (p.fmt = fE4M3) || decide (p.fmt = fE5M2) || decide (p.fmt = fMXINT8)) &&
          decide (p.cols = 576) && decide (p.eoff % 128 = 0) && decide (p.rstride % 128 = 0)
        else decide (p.cols ≤ classK (widthClass p.fmt)))
  | .b => few && decide (widthClass p.fmt ≠ 0) && decide (p.rstride = 1024) && !p.spr &&
      (decide (p.cols ≤ classK (widthClass p.fmt)) || (decide (widthClass p.fmt = 8) && decide (p.cols = 576))) &&
      decide (p.eoff % 0x8000 < 0x400) && decide (p.eoff % 0x400 + p.rowBytes ≤ 1024)
  | .dst => few && decide (p.cols ≤ 32) && !p.spr
  | .mult => decide (p.fmt = fI32) && decide (p.rows = 2) && !p.spr
  | .image => decide (p.fmt = fACC96) && few && decide (p.cols ≤ 32) && !p.spr
  | .addr => decide (p.eoff % 8 = 0)
  | .source => !p.spr

/-- The rules between the handles of a major (R242, R258, R260), in the order TD, TA, TB. -/
def crossOk (opc : Nat) (ps : List Plane) : Bool :=
  match opc, ps with
  | 0x40, [_, a, b] => decide (widthClass a.fmt = widthClass b.fmt) && decide (a.cols = b.cols)
  | 0x43, [d, _, y] => (decide (d.fmt = fI8) || decide (d.fmt = fI32)) && decide (y.cols = d.cols)
  | 0x46, [d, a] => decide (d.fmt = a.fmt) && decide (d.rows = a.rows) && decide (d.cols = a.cols) && decide (d.slay = a.slay)
  | _, _ => true

/-! ### The command (R246 to R248) -/

/-- The offset of a tile in the core window (R237). -/
def tileOff (t : Nat) : Nat := 0xC0000 + 0x3000 * t

def mxuOpc (w : Vector Word 8) : Nat := bits w[0] 7 0
def mxuF (w : Vector Word 8) : Nat := bits w[0] 10 8
def mxuCtl (w : Vector Word 8) : Nat := bits w[0] 13 11
def mxuTile (w : Vector Word 8) : Fin 4 := ix 4 (bits w[0] 15 14)
def mxuAnchor (w : Vector Word 8) : Int := twos 16 (bits w[0] 31 16)
def mxuLimit (w : Vector Word 8) : Nat := bits w[0] 63 48
def mxuColour (w : Vector Word 8) : Nat := bits w[0] 45 40
def mxuX (w : Vector Word 8) : Plane := planeFrom w[2] w[3]
def mxuY (w : Vector Word 8) : Plane := planeFrom w[4] w[5]

/-- The reply target of a command of the MXU of core `c` (R246, R248). -/
def mxuReplyTo (c : Nat) (w : Vector Word 8) : ReplyTo where
  rkind := bits w[0] 33 32
  bead := ix 4 (bits w[0] 35 34)
  slot := bits w[0] 38 36
  colour := bits w[0] 45 40
  value := w[6]
  core := if bits w[0] 33 32 = 1 then c else bits w[7] 39 28
  off := bits w[7] 17 0
  mb := bits w[7] 27 26
  type := bits w[7] 25 18
  ctxid := w[1].setWidth 32

/-- The key block of an MCVT with its STEP (R44, R246). -/
def mxuKey (w : Vector Word 8) : Key :=
  ⟨w[4].setWidth 32, w[4].extractLsb' 32 32, w[5].setWidth 32, w[5].extractLsb' 32 32, w[1].extractLsb' 32 32⟩

/-- The planes of a command with their roles and whether it writes them (R246, R252). -/
def mxuPlanes (w : Vector Word 8) : List (Role × Plane × Bool) :=
  match mxuOpc w with
  | 0x40 => [(.a, mxuX w, false), (.b, mxuY w, false)]
  | 0x41 => if mxuF w = 1 ∨ mxuF w = 2 then [(.image, mxuX w, false)]
      else if mxuF w = 3 then [(.addr, mxuX w, false)] else []
  | 0x42 => [(.dst, mxuX w, true)]
  | 0x43 => [(.dst, mxuX w, true), (.mult, mxuY w, false)]
  | 0x44 => [(.addr, mxuX w, true)]
  | 0x46 => [(.b, mxuX w, true), (.source, mxuY w, false)]
  | _ => []

/-- Whether a command names a tile, and whether it writes it (R252). -/
def mxuTileUse (opc : Nat) : Option Bool :=
  if opc = 0x40 ∨ opc = 0x41 ∨ opc = 0x45 then some true
  else if opc = 0x42 ∨ opc = 0x43 ∨ opc = 0x44 then some false
  else none

/-- The ranges that a command guards (R252). -/
def mxuRanges (w : Vector Word 8) : List Range :=
  (match mxuTileUse (mxuOpc w) with
    | some write => [(tileOff (mxuTile w).val, 0x3000, write)]
    | none => []) ++
  (mxuPlanes w).flatMap fun e => if e.1 = .addr then [(e.2.1.eoff, 8, e.2.2)] else e.2.1.ranges e.2.2

/-- Whether a command sets its tile's anchor (R245). -/
def mxuSets (w : Vector Word 8) : Bool := decide (mxuOpc w = 0x45) || (decide (mxuOpc w = 0x41) && decide (mxuF w < 2))

/-- Whether the codes of a command are assigned (R36, R261, R266). -/
def mxuCodes (w : Vector Word 8) : Bool :=
  let f := mxuF w
  (match mxuOpc w with
    | 0x40 => decide (f = 0)
    | 0x41 => decide (f ≤ 3)
    | 0x42 => decide (f ≤ 4)
    | 0x43 => decide (f = 0)
    | 0x44 => decide (f ≤ 1)
    | 0x45 => decide (f = 0)
    | 0x46 => decide (f = 0)
    | _ => false) && decide (mxuCtl w ≤ (if mxuOpc w = 0x42 then 1 else 0)) &&
  (mxuPlanes w).all fun e => e.1 = .addr || decide (e.2.1.slay ≤ 2)

/-- Whether a plane lies in the storage that its role names (R241). -/
def Role.inside (role : Role) (p : Plane) : Bool :=
  let lo := if role = .b then 0x40000 else 0
  let hi := if role = .b then 0xC0000 else 0x40000
  (if role = .addr then [(p.eoff, 8, false)] else p.ranges false).all fun r => decide (lo ≤ r.1) && decide (r.1 + r.2.1 ≤ hi)

/-- The rules between the planes of a command. -/
def mxuCross (w : Vector Word 8) : Bool :=
  match mxuOpc w with
  | 0x40 => crossOk 0x40 [mxuX w, mxuX w, mxuY w]
  | 0x43 => crossOk 0x43 [mxuX w, mxuX w, mxuY w]
  | 0x46 => crossOk 0x46 [mxuX w, mxuY w]
  | _ => true

/-- Whether a command is an MCVT of mode SRK. -/
def mxuKeyed (w : Vector Word 8) : Bool := decide (mxuOpc w = 0x42) && decide (mxuF w = 4)

/-- What ends a posted command at its start whatever its tile holds: a cause, 0 for none (R249, R250, R261). -/
def State.mxuForm (s : State) (c : Nat) (w : Vector Word 8) : BitVec 10 :=
  if !mxuCodes w then 0x002
  else if ((mxuPlanes w).any fun e => !e.1.ok e.2.1 || (e.1 ≠ .addr && !e.2.1.ok (mxuKeyed w && e.1 = .dst)) || !e.1.inside e.2.1) ∨
      !mxuCross w ∨ (mxuOpc w = 0x42 ∧ !(mxuX w).aligned (mxuKey w).col0) then 0x003
  else if !bit w[7] 56 ∧ (mxuRanges w).any fun r => !s.frameOk c (bits w[7] 55 40) r then 0x301
  else 0

/-- The anchor that a tile will hold once every command in the inbox has run (R245): one that will fail sets none. -/
def State.futureAnchor (s : State) (c : Nat) (t : Fin 4) : Int :=
  (s.core c).mxuIn.foldl (fun a cmd =>
    if mxuSets cmd.w ∧ mxuTile cmd.w = t ∧ (cmd.insn ∨ s.mxuForm c cmd.w = 0) then mxuAnchor cmd.w else a)
    ((s.core c).tiles[t]).anchor.toInt

/-! ### Issue (R244) -/

/-- A handle of a major: its number, its role, and whether it is a destination. -/
abbrev Operand := HandleNo × Role × Bool

/-- The target type that a role maps (R241). -/
def Role.target : Role → Nat
  | .tile => 3
  | .b => 2
  | _ => 1

/-- Translates the handles of a major in order (R244, step 4). -/
def State.xlateOperands (s : State) (k : Nat) : List (Handle × Role × Bool) →
    Except (BitVec 10 × Word) (State × List Plane)
  | [] => .ok (s, [])
  | (h, role, dest) :: l =>
    let kind := if dest then AccKind.store else AccKind.load
    let here := if role = .addr then (s.xlateRange k kind 1 64 h.base 8).map fun r => (r.1, h.plane r.2 0)
      else s.xlatePlane k kind role.target 64 h
    match here with
    | .error e => .error e
    | .ok (s, p) => (State.xlateOperands s k l).map fun r => (r.1, p :: r.2)

/-- The words of the command of an instruction (R246). -/
def Slot.mxuWords (sl : Slot) (k opc f ctl tile : Nat) (anchor : Int) (x y : Word × Word) : Vector Word 8 :=
  #v[fields [(opc, 0), (f, 8), (ctl, 11), (tile, 14), (lowBits 16 anchor, 16), (0, 32), (3, 34),
       ((keySlot k).val, 36), (sl.jobcol.toNat, 40), (sl.trclim.toNat, 48)],
     fields [(sl.ctxid.toNat, 0), (sl.step.toNat, 32)], x.1, x.2, y.1, y.2, 0,
     fields [(sl.asid.toNat, 40), ((decide (2 ≤ sl.cls.toNat)).toNat, 56)]]

/-- The key block of a destination handle (R246). -/
def Handle.keyWords (h : Handle) : Word × Word := (h.row0 ++ h.tid, h.hseed ++ h.col0)

/-- The waits of an instruction, in order: bead, guard entries, pool entry, room (R91, R159, R180, R244). -/
def State.issueWait (s : State) (k : Nat) (bead : Option (Fin 4)) (ranges : Nat) (pool : Option Nat)
    (room : Bool) (w : Wait) : Option Wait :=
  let c := keyCore k
  match bead.filter fun b => (s.slot k).beads[b] = 63 with
  | some b => some (.beadRoom b)
  | none =>
    if !s.guardRoom c ranges then some (.guards [(c, ranges)])
    else match pool.filter fun p => !s.poolFree p 1 with
      | some p => some (.pool p)
      | none => if room then none else some w

/-- Posts a command to the MXU of the issuing core: the release, the bead, the guards and the inbox. -/
def State.mxuPost (s : State) (k : Nat) (w : Vector Word 8) (insn : Bool) (spans : List (BitVec 16 × Nat × Nat)) : State :=
  let c := keyCore k
  let r := mxuReplyTo c w
  let s := s.release k
  let cmd := s.newCmd k w insn (if r.rkind = 2 then some r.core else none) spans
  let s := if r.rkind = 0 then s.modSlot k fun sl => sl.beadUp r.bead else s
  let s := if r.rkind = 2 then s.claim r.core else s
  let s := s.enterRanges c c (s.slot k).ctxid cmd.id (mxuRanges w)
  s.bump.modCore c fun co => { co with mxuIn := co.mxuIn ++ [cmd] }

/-- Whether the inbox of an MXU has room (R249). -/
def State.mxuRoom (s : State) (c : Nat) : Bool := decide ((s.core c).mxuIn.length < 8)

/-- The issue of a matrix instruction (R244, R245). -/
def State.mxuIssue (s : State) (k opc f ctl : Nat) (ops : List Operand) : Act :=
  let sl := s.slot k
  let hs := ops.map fun o => (sl.handle o.1, o.2)
  let keyed (e : Role) : Bool := decide (opc = 0x42) && decide (f = 4) && decide (e = .dst)
  let ps := hs.map fun e => (e.1.plane (e.1.base.toNat % 0x10000) 0)
  match s.missing (hs.map (·.1)) with
  | some n => .undef n
  | none =>
    if hs.any fun e => !e.1.ok (keyed e.2.1) then .trap 0x003#10 0
    else if ((hs.zip ps).any fun e => !e.1.2.1.ok e.2) ∨ !crossOk opc ps then .trap 0x003#10 0
    else
      match s.xlateOperands k hs with
      | .error (e, va) => .trap e va
      | .ok (s, planes) =>
        let tile := (hs.zip planes).find? fun e => e.1.2.1 = .tile
        let t := (tile.map fun e => (e.2.eoff - 0xC0000) / 0x3000).getD 0
        let anchor := (tile.map fun e => e.1.1.anchor).getD 0
        let others := ((hs.zip planes).filter fun e => e.1.2.1 ≠ .tile).map fun e => e.2.words
        let y := if opc = 0x42 then ((hs.head?).map fun e => e.1.keyWords).getD (0, 0) else others.getD 1 (0, 0)
        let w := sl.mxuWords k opc f ctl t anchor (others.getD 0 (0, 0)) y
        if tile.isSome ∧ !mxuSets w ∧ anchor ≠ s.futureAnchor (keyCore k) (ix 4 t) then .trap 0x300#10 0
        else
          match s.issueWait k (some 3) (mxuRanges w).length none (s.mxuRoom (keyCore k)) .mxuRoom with
          | some wt => .wait s wt
          | none => .next (s.mxuPost k w true (hs.flatMap fun e =>
              if e.2.1 = .addr then [(sl.asid, e.1.base.toNat, 8)] else e.1.spans sl.asid))

/-- A matrix instruction (R266): 2 cycles. -/
def State.mxuInsn (s : State) (feats : List Nat) (g : PredNo) (opc f ctl : Nat) (ops : List Operand) :
    Host.Outcome State Fault Refusal :=
  s.run { feats := feats, engine := true } 4 2 g fun k => s.mxuIssue k opc f ctl ops

/-- MMA (R254). -/
def execMma (td ta tb : HandleNo) (g : PredNo) (s : State) : Host.Outcome State Fault Refusal :=
  s.mxuInsn [8] g 0x40 0 0 [(td, .tile, true), (ta, .a, false), (tb, .b, false)]

/-- MZERO_ZERO (R255). -/
def execMzeroZero (td : HandleNo) (g : PredNo) (s : State) : Host.Outcome State Fault Refusal :=
  s.mxuInsn [8] g 0x41 0 0 [(td, .tile, true)]

/-- MZERO_LOAD (R255). -/
def execMzeroLoad (td ta : HandleNo) (g : PredNo) (s : State) : Host.Outcome State Fault Refusal :=
  s.mxuInsn [8] g 0x41 1 0 [(td, .tile, true), (ta, .image, false)]

/-- MZERO_ADD (R255). -/
def execMzeroAdd (td ta : HandleNo) (g : PredNo) (s : State) : Host.Outcome State Fault Refusal :=
  s.mxuInsn [8] g 0x41 2 0 [(td, .tile, true), (ta, .image, false)]

/-- MZERO_STAT (R255). -/
def execMzeroStat (td ta : HandleNo) (g : PredNo) (s : State) : Host.Outcome State Fault Refusal :=
  s.mxuInsn [8] g 0x41 3 0 [(td, .tile, true), (ta, .addr, false)]

/-- MCVT (R257). -/
def State.mcvt (s : State) (f : Nat) (td ta : HandleNo) (ctl : BitVec 1) (g : PredNo) : Host.Outcome State Fault Refusal :=
  s.mxuInsn (if f = 4 then [8, 40] else [8]) g 0x42 f ctl.toNat [(td, .dst, true), (ta, .tile, false)]

/-- MCVT_RNE (R257). -/
def execMcvtRne (td ta : HandleNo) (ctl : BitVec 1) (g : PredNo) (s : State) :
    Host.Outcome State Fault Refusal := s.mcvt 0 td ta ctl g

/-- MCVT_RTZ (R257). -/
def execMcvtRtz (td ta : HandleNo) (ctl : BitVec 1) (g : PredNo) (s : State) :
    Host.Outcome State Fault Refusal := s.mcvt 1 td ta ctl g

/-- MCVT_RDN (R257). -/
def execMcvtRdn (td ta : HandleNo) (ctl : BitVec 1) (g : PredNo) (s : State) :
    Host.Outcome State Fault Refusal := s.mcvt 2 td ta ctl g

/-- MCVT_RUP (R257). -/
def execMcvtRup (td ta : HandleNo) (ctl : BitVec 1) (g : PredNo) (s : State) :
    Host.Outcome State Fault Refusal := s.mcvt 3 td ta ctl g

/-- MCVT_SRK (R257). -/
def execMcvtSrk (td ta : HandleNo) (ctl : BitVec 1) (g : PredNo) (s : State) :
    Host.Outcome State Fault Refusal := s.mcvt 4 td ta ctl g

/-- MRESC (R258). -/
def execMresc (td ta tb : HandleNo) (g : PredNo) (s : State) : Host.Outcome State Fault Refusal :=
  s.mxuInsn [8] g 0x43 0 0 [(td, .dst, true), (ta, .tile, false), (tb, .mult, false)]

/-- MSTAT_RD (R259). -/
def execMstatRd (td ta : HandleNo) (g : PredNo) (s : State) : Host.Outcome State Fault Refusal :=
  s.mxuInsn [8] g 0x44 0 0 [(td, .addr, true), (ta, .tile, false)]

/-- MSTAT_RDCLR (R259). -/
def execMstatRdclr (td ta : HandleNo) (g : PredNo) (s : State) : Host.Outcome State Fault Refusal :=
  s.mxuInsn [8] g 0x44 1 0 [(td, .addr, true), (ta, .tile, false)]

/-- MANCH (R256). -/
def execManch (td : HandleNo) (g : PredNo) (s : State) : Host.Outcome State Fault Refusal :=
  s.mxuInsn [8] g 0x45 0 0 [(td, .tile, true)]

/-- MBPUT (R260). -/
def execMbput (td ta : HandleNo) (g : PredNo) (s : State) : Host.Outcome State Fault Refusal :=
  s.mxuInsn [8] g 0x46 0 0 [(td, .b, true), (ta, .source, false)]

/-- Reads the 64 bytes of a command or packet that a handle names in the own scratchpad, as a load
(R261, R314): the words, or a cause and its address. Its FMT is not checked (log 93). -/
def State.readCommand (s : State) (k : Nat) (h : Handle) : Except (BitVec 10 × Word) (State × Vector Word 8) :=
  if !h.val ∨ h.base.toNat % 64 ≠ 0 then .error (0x003#10, 0)
  else
    match s.xlateRange k .load 1 64 h.base 64 with
    | .error e => .error e
    | .ok (s, off) =>
      match s.check (keyCore k) (s.slot k).asid (s.slot k).cls .load .load h.base 64 64 with
      | .error e => .error (e, h.base)
      | .ok _ =>
        let key := s.winKey (keyCore k) off
        if s.poisoned key 64 then .error (0x118#10, h.base)
        else .ok (s, vec8 ((List.range 8).map fun i => BitVec.ofNat 64 (s.loadLE (key + 8 * i) 8)))

/-- What MPOST overwrites (R261): SLOT, COLOUR, CTXID, ASID and PRIV. -/
def Slot.ownMxu (sl : Slot) (k : Nat) (w : Vector Word 8) : Vector Word 8 :=
  let w := w.set 0 (setField (setField w[0] 38 36 (keySlot k).val) 45 40 sl.jobcol.toNat)
  let w := w.set 1 (setField w[1] 31 0 sl.ctxid.toNat)
  w.set 7 (setField (setField w[7] 55 40 sl.asid.toNat) 56 56 (decide (2 ≤ sl.cls.toNat)).toNat)

/-- MPOST (R261). -/
def execMpost (td : HandleNo) (g : PredNo) (s : State) : Host.Outcome State Fault Refusal :=
  s.run { feats := [8], engine := true } 4 3 g fun k =>
    match s.readCommand k ((s.slot k).handle td) with
    | .error (e, va) => .trap e va
    | .ok (s, w) =>
      let w := (s.slot k).ownMxu k w
      let r := mxuReplyTo (keyCore k) w
      if r.rkind = 3 then .trap 0x003#10 0
      else
        match s.issueWait k (if r.rkind = 0 then some r.bead else none) (mxuRanges w).length
            (if r.rkind = 2 then some r.core else none) (s.mxuRoom (keyCore k)) .mxuRoom with
        | some wt => .wait s wt
        | none => .next (s.mxuPost k w false [])

/-! ### Posts to the inbox (R249) -/

/-- Accepts a posted command into an inbox: its number, words and the context of core `c` in whose name it runs. One
that the S-die posted has no issuing context (R212). -/
def Post.cmd (p : Post) (c : Nat) (ctxid : BitVec 32) : Cmd :=
  ⟨p.id, p.w, p.poster.map fun i => { i with core := c, ctxid := ctxid }, false, 0, false, none, []⟩

/-- MXU_INBOX_POST (R249): refused with 0x203, retried, or accepted. -/
def execMxuInboxPost (n : Nat) (s : State) : Host.Outcome State Fault Refusal :=
  s.event (match s.arriving n with
    | none => s
    | some p =>
      match p.inbox with
      | .mxu c =>
        let r := mxuReplyTo c p.w
        if r.rkind = 0 ∨ r.rkind = 3 then s.failPost n p 0x203#10
        else if !s.mxuRoom c then s.refusePost n p
        else
          let s := (s.dropPost n).postAccepted p.id
          let x := s.prepare c c (s.slot (slotKey c r.slot)).ctxid (p.cmd c r.ctxid) (mxuRanges p.w) r
          x.1.modCore c fun co => { co with mxuIn := co.mxuIn ++ [x.2] }
      | _ => s)

/-! ### Tiles (R237, R238) -/

/-- The key of element (r, c) of a tile. -/
def State.tileKey (s : State) (core : Nat) (t : Fin 4) (r c : Nat) : Nat :=
  s.winKey core (tileOff t.val + 384 * r + 12 * c)

/-- The integer of an element of a tile. -/
def State.tileInt (s : State) (core : Nat) (t : Fin 4) (r c : Nat) : Int := twos 96 (s.loadLE (s.tileKey core t r c) 12)

/-- Writes elements of a tile: row, column and integer. -/
def State.setTile (s : State) (core : Nat) (t : Fin 4) (l : List (Nat × Nat × Int)) : State :=
  l.foldl (fun s e => s.storeLE (s.tileKey core t e.1 e.2.1) 12 (lowBits 96 e.2.2)) s

def State.tile (s : State) (core : Nat) (t : Fin 4) : Tile := (s.core core).tiles[t]

def State.modTile (s : State) (core : Nat) (t : Fin 4) (f : Tile → Tile) : State :=
  s.modCore core fun co => { co with tiles := co.tiles.set t (f co.tiles[t]) }

/-- What a command does at its start: the state, the flags that it raises, and its cause. -/
abbrev Done := State × BitVec 7 × BitVec 10

/-- WIDEN's condition (R34). -/
def Tile.past (t : Tile) (limit : Nat) : Bool := decide (t.anchor.toInt + 94 < t.hwx.toInt + 24) || decide (limit < t.trc.toNat)

/-- Sets WIDEN where its condition holds or an element wrapped, and credits it (R34, R255, R256). -/
def State.widen (s : State) (core : Nat) (t : Fin 4) (limit : Nat) (wrapped : Bool) : State × BitVec 7 :=
  if (s.tile core t).past limit ∨ wrapped then (s.modTile core t fun x => { x with widen := true }, flWIDEN) else (s, 0)

/-- A re-anchored integer before reduction modulo 2^96, and whether it lost bits (R253). -/
def reanchor (x a b : Int) : Int × Bool := floor2 (decide (x < 0)) x.natAbs a b

/-- Whether an integer needs more than 96 bits. -/
def wraps96 (x : Int) : Bool := decide (x < -(2 ^ 95)) || decide (2 ^ 95 ≤ x)

/-- TRC after more terms that lost bits (R34). -/
def addTrc (trc : BitVec 16) (n : Nat) : BitVec 16 := BitVec.ofNat 16 (Nat.min (trc.toNat + n) 0xFFFF)

/-! ### MMA (R254) -/

/-- The sum of an element and the range monitor while terms are added. -/
structure MmaSum where
  sum   : Int
  hwx   : Int
  lost  : Nat
  added : Bool
  bad   : Bool
  deriving DecidableEq, Repr

/-- Adds one term (R32 to R34). -/
def MmaSum.term (m : MmaSum) (α : Int) (a b : Val) : MmaSum :=
  match a, b with
  | .fin s x e, .fin t y f =>
    if x * y = 0 then m
    else
      let k := floor2 (s != t) (x * y) (e + f) α
      { m with sum := m.sum + k.1, hwx := max m.hwx (max (-32767) (min 32767 (logOf (x * y) (e + f)))),
               lost := if k.2 then m.lost + 1 else m.lost, added := true }
  | _, _ => { m with bad := true }

/-- The terms of one element: a row of A against a row of B. -/
def mmaElem (α : Int) (m : MmaSum) (a : List (Nat × Elem)) (b : Array Elem) : MmaSum :=
  a.foldl (fun m e => m.term α e.2.1 (b.getD e.1 (.fin false 0 0, false)).1) m

/-- MMA performed (R254). -/
def State.mmaDo (s : State) (c : Nat) (w : Vector Word 8) : Done :=
  let t := mxuTile w
  let T := s.tile c t
  let A := mxuX w
  let B := mxuY w
  let as := (List.range A.rows).map fun m => s.rowTerms c A m
  let bs := (List.range B.rows).map fun n => (s.rowValues c B n).toArray
  let poison := (as.any fun l => l.any (·.2.2)) || bs.any fun l => l.any (·.2)
  let start : MmaSum := ⟨0, T.hwx.toInt, 0, false, false⟩
  let cells := ((List.range A.rows).zip as).flatMap fun m => ((List.range B.rows).zip bs).map fun n => (m.1, n.1, m.2, n.2)
  let out := cells.foldl (fun (o : List (Nat × Nat × Int) × MmaSum) e =>
    let r := mmaElem T.anchor.toInt { o.2 with sum := s.tileInt c t e.1 e.2.1 } e.2.2.1 e.2.2.2
    (o.1 ++ [(e.1, e.2.1, r.sum)], r)) ([], start)
  let s := s.setTile c t out.1
  let s := s.modTile c t fun x =>
    { x with hwx := BitVec.ofInt 16 out.2.hwx, trc := addTrc x.trc out.2.lost,
             invalid := x.invalid || out.2.bad, poison := x.poison || poison }
  let wd := if out.2.added then s.widen c t (mxuLimit w) false else (s, 0)
  (wd.1, wd.2 ||| (if out.2.bad then flNV else 0), 0)

/-! ### MZERO, MANCH, MSTAT (R255, R256, R259) -/

/-- All positions of a tile. -/
def tileCells : List (Nat × Nat) := (List.range 32).flatMap fun r => (List.range 32).map fun c => (r, c)

/-- Writes a tile from re-anchored integers: each with whether it lost bits. -/
def State.retile (s : State) (c : Nat) (t : Fin 4) (l : List (Nat × Nat × Int × Bool)) (w : Vector Word 8)
    (wrapped : Bool) : Done :=
  let s := s.setTile c t (l.map fun e => (e.1, e.2.1, e.2.2.1))
  let s := s.modTile c t fun x => { x with trc := addTrc x.trc (l.filter fun e => e.2.2.2).length }
  let wd := s.widen c t (mxuLimit w) (wrapped || l.any fun e => wraps96 e.2.2.1)
  (wd.1, wd.2, 0)

/-- A reset monitor with an anchor (R238, R255). -/
def Tile.fresh (anchor : Int) (poison : Bool) : Tile := ⟨BitVec.ofInt 16 anchor, 0x8000#16, 0, false, false, poison⟩

/-- The image of MZERO.load and MZERO.add: row, column, re-anchored integer, lost bits, poison. -/
def State.image (s : State) (c : Nat) (p : Plane) (α : Int) : List (Nat × Nat × Int × Bool × Bool) :=
  (List.range p.rows).flatMap fun r => ((List.range p.cols).zip (s.rowCodes c p r)).map fun e =>
    let v := reanchor (twos 96 e.2.1) p.anchor α
    (r, e.1, v.1, v.2, e.2.2)

/-- MZERO performed (R255). -/
def State.mzeroDo (s : State) (c : Nat) (w : Vector Word 8) : Done :=
  let t := mxuTile w
  let α := mxuAnchor w
  let p := mxuX w
  match mxuF w with
  | 0 => ((s.setTile c t (tileCells.map fun e => (e.1, e.2, 0))).modTile c t fun _ => Tile.fresh α false, 0, 0)
  | 1 =>
    let img := s.image c p α
    let s := s.modTile c t fun _ => Tile.fresh α (img.any fun e => e.2.2.2.2)
    s.retile c t (tileCells.map fun e =>
      match img.find? fun i => i.1 = e.1 ∧ i.2.1 = e.2 with
      | some i => (e.1, e.2, i.2.2.1, i.2.2.2.1)
      | none => (e.1, e.2, 0, false)) w false
  | 2 =>
    let img := s.image c p α
    let s := s.modTile c t fun x => { x with poison := x.poison || img.any fun e => e.2.2.2.2 }
    s.retile c t (img.map fun i => (i.1, i.2.1, s.tileInt c t i.1 i.2.1 + i.2.2.1, i.2.2.2.1)) w
      (img.any fun i => wraps96 i.2.2.1)
  | _ =>
    let key := s.winKey c p.eoff
    if s.poisoned key 8 then (s.modTile c t fun x => { x with poison := true }, 0, 0)
    else
      let v := BitVec.ofNat 64 (s.loadLE key 8)
      (s.modTile c t fun x =>
        { x with hwx := v.setWidth 16, trc := v.extractLsb' 16 16, widen := bit v 32, invalid := bit v 33,
                 poison := x.poison || bit v 34 }, 0, 0)

/-- MANCH performed (R256). -/
def State.manchDo (s : State) (c : Nat) (w : Vector Word 8) : Done :=
  let t := mxuTile w
  let a := (s.tile c t).anchor.toInt
  let l := tileCells.map fun e => (e.1, e.2, reanchor (s.tileInt c t e.1 e.2) a (mxuAnchor w))
  let s := s.modTile c t fun x => { x with anchor := BitVec.ofInt 16 (mxuAnchor w) }
  s.retile c t l w false

/-- The status word of a tile (R259). -/
def Tile.status (t : Tile) : Word :=
  fields [(t.hwx.toNat, 0), (t.trc.toNat, 16), (t.widen.toNat, 32), (t.invalid.toNat, 33), (t.poison.toNat, 34),
    (t.anchor.toNat, 48)]

/-- Bytes of a word as cells of an engine write. -/
def wordCells (key n v : Nat) (bad : Bool) : List Cell :=
  (List.range n).map fun i => (key + i, BitVec.ofNat 8 (v / 256 ^ i), bad)

/-- MSTAT performed (R259). -/
def State.mstatDo (s : State) (c : Nat) (w : Vector Word 8) : Done :=
  let t := mxuTile w
  let s := s.engineWrite (wordCells (s.winKey c (mxuX w).eoff) 8 (s.tile c t).status.toNat false)
  (if mxuF w = 1 then s.modTile c t fun x => { x with hwx := 0x8000#16, trc := 0, widen := false } else s, 0, 0)

/-! ### MCVT, MRESC, MBPUT (R257, R258, R260) -/

/-- One row of MCVT. -/
def State.mcvtRow (s : State) (c : Nat) (w : Vector Word 8) (r : Nat) : List Cell × BitVec 7 :=
  let t := mxuTile w
  let T := s.tile c t
  let D := mxuX w
  let xs := (List.range D.cols).map fun i => s.tileInt c t r i
  if D.fmt = fACC96 then
    (s.rowCells c D r (xs.map fun x => (lowBits 96 (reanchor x T.anchor.toInt D.anchor).1, T.poison)),
     if T.invalid then flNV else 0)
  else
    let vals : List Elem := xs.map fun x => (if T.invalid then .nan false else .ofInt x T.anchor.toInt, false)
    let h := if D.had then hadOut (mxuKey w) (mxuF w) r vals else (vals, 0)
    let o := s.convertRow c D (mxuKey w) (mxuF w) (decide (mxuCtl w = 1)) r h.1
    (s.outCells c D r o, o.flags ||| h.2)

/-- The rows of a conversion together. -/
def gatherRows (l : List (List Cell × BitVec 7)) : List Cell × BitVec 7 :=
  (l.flatMap (·.1), l.foldl (fun f e => f ||| e.2) 0)

/-- MCVT performed (R257, R262). -/
def State.mcvtDo (s : State) (c : Nat) (w : Vector Word 8) : Done :=
  if (s.tile c (mxuTile w)).poison ∧ (mxuX w).fmt ≠ fACC96 then (s, 0, 0x118)
  else
    let out := gatherRows ((List.range (mxuX w).rows).map fun r => s.mcvtRow c w r)
    (s.engineWrite out.1, out.2, 0)

/-- One element of MRESC: the code and its flags (R258). -/
def mrescElem (fmt : Nat) (invalid : Bool) (x α : Int) (m sh : Nat) : Flagged Nat :=
  if invalid then (0, flNV)
  else
    let v := x * twos 32 m
    let q := Ratio.round ⟨v.natAbs, 1, α - (sh % 64 : Nat)⟩ 0 (decide (v < 0)) 0 0
    let i := signed (decide (v < 0)) q.1
    let lim := intLimits fmt
    let fl := if q.2 then flIX else 0
    if i < lim.1 then (lowBits (elemBits fmt) lim.1, fl ||| flOF ||| flSAT)
    else if lim.2 < i then (lowBits (elemBits fmt) lim.2, fl ||| flOF ||| flSAT)
    else (lowBits (elemBits fmt) i, fl)

/-- MRESC performed (R258). -/
def State.mrescDo (s : State) (c : Nat) (w : Vector Word 8) : Done :=
  let t := mxuTile w
  let T := s.tile c t
  let D := mxuX w
  let y0 := s.rowCodes c (mxuY w) 0
  let y1 := s.rowCodes c (mxuY w) 1
  if T.poison ∨ (y0 ++ y1).any (·.2) then (s, 0, 0x118)
  else
    let out := gatherRows ((List.range D.rows).map fun r =>
      let es := (List.range D.cols).map fun i =>
        mrescElem D.fmt T.invalid (s.tileInt c t r i) T.anchor.toInt (y0.getD i (0, false)).1 (y1.getD i (0, false)).1
      (s.rowCells c D r (es.map fun e => (e.1, false)), es.foldl (fun f e => f ||| e.2) 0))
    (s.engineWrite out.1, out.2, 0)

/-- Bytes copied between offsets of a core's window, with their poison. -/
def State.copyCells (s : State) (c src dst n : Nat) : List Cell :=
  (List.range n).map fun i =>
    let key := s.winKey c (src + i)
    (s.winKey c (dst + i), Memory.read s.mem key, s.poisoned key 1)

/-- MBPUT performed (R260). -/
def State.mbputDo (s : State) (c : Nat) (w : Vector Word 8) : Done :=
  let D := mxuX w
  let S := mxuY w
  let rows := (List.range S.rows).flatMap fun n =>
    s.copyCells c (S.eoff + n * S.rstride) (D.eoff + n * D.rstride) S.rowBytes
  (s.engineWrite (rows ++ s.copyCells c S.soff D.soff S.scaleBytes), 0, 0)

/-! ### Starting a command (R250, R251) -/

/-- The cause that ends a posted command at its start, 0 for none (R245, R249, R250, R261, log 29). -/
def State.mxuJudge (s : State) (c : Nat) (w : Vector Word 8) : BitVec 10 :=
  if s.mxuForm c w ≠ 0 then s.mxuForm c w
  else if (mxuTileUse (mxuOpc w)).isSome ∧ !mxuSets w ∧ mxuAnchor w ≠ (s.tile c (mxuTile w)).anchor.toInt then 0x300
  else 0

/-- Cycles for which a command occupies the unit (R251). -/
def mxuTime (w : Vector Word 8) : Nat :=
  match mxuOpc w with
  | 0x40 => 96
  | 0x41 => if mxuF w = 1 ∨ mxuF w = 2 then 96 else 8
  | 0x44 => 8
  | 0x45 => 32
  | 0x46 => 96 + ((mxuX w).scaleBytes + 127) / 128
  | _ => 64

/-- Starts the command at the head of an MXU's inbox: what it performs, then its reply is due (R251). -/
def State.mxuStart (s : State) (c : Nat) (cmd : Cmd) (perform : State → Nat → Vector Word 8 → Done) : State :=
  let cause := if cmd.insn then 0 else s.mxuJudge c cmd.w
  let d := if cause = 0 then perform s c cmd.w else (s, 0, cause)
  d.1.modCore c fun co =>
    { co with mxuIn := co.mxuIn.tail, mxuRun := co.mxuRun ++ [⟨cmd, d.2.2, d.2.1, false, 0, 0⟩],
              mxuFree := s.cycle + mxuTime cmd.w }

/-- The start of the command at the head of the inbox, where its OPC is one of these, the unit is free and
what it waits for is there (R180, R249, R251). -/
def State.mxuCommand (s : State) (c : Nat) (opc : Nat → Bool) (perform : State → Nat → Vector Word 8 → Done) : State :=
  match (s.core c).mxuIn with
  | [] => s
  | cmd :: _ =>
    let r := mxuReplyTo c cmd.w
    if !opc (mxuOpc cmd.w) ∨ s.cycle < (s.core c).mxuFree then s
    else
      let x := s.prepare c c (s.slot (slotKey c r.slot)).ctxid cmd (mxuRanges cmd.w) r
      if x.2.prepared r then x.1.mxuStart c x.2 perform
      else x.1.modCore c fun co => { co with mxuIn := x.2 :: co.mxuIn.tail }

/-- MXU_CMD_MMA (R254); a reserved OPC ends here too, with 0x002 (R261). -/
def execMxuCmdMma (core : Nat) (s : State) : Host.Outcome State Fault Refusal :=
  .next (s.mxuCommand core (fun o => o = 0x40 || o < 0x40 || 0x46 < o) State.mmaDo)

/-- MXU_CMD_MZERO (R255). -/
def execMxuCmdMzero (core : Nat) (s : State) : Host.Outcome State Fault Refusal :=
  .next (s.mxuCommand core (· = 0x41) State.mzeroDo)

/-- MXU_CMD_MCVT (R257). -/
def execMxuCmdMcvt (core : Nat) (s : State) : Host.Outcome State Fault Refusal :=
  .next (s.mxuCommand core (· = 0x42) State.mcvtDo)

/-- MXU_CMD_MRESC (R258). -/
def execMxuCmdMresc (core : Nat) (s : State) : Host.Outcome State Fault Refusal :=
  .next (s.mxuCommand core (· = 0x43) State.mrescDo)

/-- MXU_CMD_MSTAT (R259). -/
def execMxuCmdMstat (core : Nat) (s : State) : Host.Outcome State Fault Refusal :=
  .next (s.mxuCommand core (· = 0x44) State.mstatDo)

/-- MXU_CMD_MANCH (R256). -/
def execMxuCmdManch (core : Nat) (s : State) : Host.Outcome State Fault Refusal :=
  .next (s.mxuCommand core (· = 0x45) State.manchDo)

/-- MXU_CMD_MBPUT (R260). -/
def execMxuCmdMbput (core : Nat) (s : State) : Host.Outcome State Fault Refusal :=
  .next (s.mxuCommand core (· = 0x46) State.mbputDo)

/-- MXU_REPLY (R248): replies in start order; a fault that LANE retries starts again first. -/
def execMxuReply (core : Nat) (s : State) : Host.Outcome State Fault Refusal :=
  s.event (match (s.core core).mxuRun with
    | [] => s
    | st :: rest =>
      let r := mxuReplyTo core st.cmd.w
      let s := s.modCore core fun co => { co with mxuRun := rest }
      match s.lanesAgain st r.slot 1 with
      | some (i, f) =>
        (s.modCore core fun co => { co with mxuIn := { st.cmd with tries := st.cmd.tries + 1 } :: co.mxuIn }).commandRetry
          i f st.cmd.tries
      | none => s.endCommand core st r 1 (st.cause.setWidth 64) 0)

end Sys2Proof.Machine
end

