-- ==== Sys2Proof/Machine/Vector.lean ====
section
/-! DEFINITION. The vector unit (R268 to R297): issue, commands and replies. -/

namespace Sys2Proof.Machine

/-! ### The command (R276 to R278) -/

def vecOpc (w : Vector Word 8) : Nat := bits w[0] 7 0
def vecF (w : Vector Word 8) : Nat := bits w[0] 10 8
def vecCtl (w : Vector Word 8) : Nat := bits w[0] 13 11
def vecColour (w : Vector Word 8) : Nat := bits w[0] 25 20
def vecD (w : Vector Word 8) : Plane := planeVec (w[3].setWidth 32 ++ w[2])
def vecA (w : Vector Word 8) : Plane := planeVec (w[4] ++ w[3].extractLsb' 32 32)
def vecB (w : Vector Word 8) : Plane := planeVec (w[6].setWidth 32 ++ w[5])

/-- The key block of a VCVT with its STEP (R278). -/
def vecKey (w : Vector Word 8) : Key :=
  ⟨w[5].setWidth 32, w[5].extractLsb' 32 32, w[6].setWidth 32, w[6].extractLsb' 32 32, w[1].extractLsb' 32 32⟩

/-- The reply target of a command of the vector unit of core `c` (R276). -/
def vecReplyTo (c : Nat) (w : Vector Word 8) : ReplyTo where
  rkind := bits w[0] 15 14
  bead := 2
  slot := bits w[0] 18 16
  colour := vecColour w
  value := w[7]
  core := if bits w[0] 15 14 = 1 then c else c / 1024 * 1024 + bits w[0] 53 44
  off := bits w[0] 61 44
  mb := bits w[0] 55 54
  type := bits w[0] 63 56
  ctxid := w[1].setWidth 32

/-- Whether a major and function use TB (R296). -/
def vecUsesB (opc f : Nat) : Bool :=
  if opc = 0x48 then decide (f < 5)
  else if opc = 0x4B then decide (f < 4)
  else decide (opc = 0x49) || decide (opc = 0x4A) || decide (opc = 0x4C) || decide (opc = 0x50)

/-- The sources of a command. -/
def vecSources (w : Vector Word 8) : List Plane :=
  vecA w :: (if vecUsesB (vecOpc w) (vecF w) then [vecB w] else [])

/-- The ranges that a command names, destinations first. -/
def vecNamed (w : Vector Word 8) : List Range := (vecD w).ranges true ++ (vecSources w).flatMap fun p => p.ranges false

/-- The ranges that a command guards (R282). -/
def vecRanges (w : Vector Word 8) : List Range := mergeRanges (vecNamed w)

/-! ### Operand rules (R268 to R272, R284 to R293) -/

/-- The float class (R269). -/
def isFloat (fmt : Nat) : Bool := isIeee fmt

/-- The integer class (R269). -/
def isInteger (fmt : Nat) : Bool := decide (fmt = fI8) || decide (fmt = fI32) || decide (fmt = fN8)

def isArith (fmt : Nat) : Bool := isFloat fmt || isInteger fmt

/-- Whether two formats are of one class. -/
def sameClass (x y : Nat) : Bool := (isFloat x && isFloat y) || (isInteger x && isInteger y)

/-- Whether a source matches the destination's shape or is broadcast (R270). -/
def Plane.spreads (p d : Plane) : Bool :=
  (decide (p.rows = d.rows) || decide (p.rows = 1)) && (decide (p.cols = d.cols) || decide (p.cols = 1))

/-- Whether two planes have one shape. -/
def Plane.shaped (p d : Plane) : Bool := decide (p.rows = d.rows) && decide (p.cols = d.cols)

/-- Whether two planes are identical (R271). -/
def Plane.identical (p d : Plane) : Bool :=
  decide (p.eoff = d.eoff) && decide (p.fmt = d.fmt) && decide (p.slay = d.slay) && p.shaped d &&
  decide (p.rstride = d.rstride) && decide (p.soff = d.soff)

/-- Whether two planes share no byte (R271). -/
def Plane.disjoint (p d : Plane) : Bool :=
  (p.ranges false).all fun x => (d.ranges false).all fun y => decide (x.1 + x.2.1 ≤ y.1) || decide (y.1 + y.2.1 ≤ x.1)

/-- Whether a major is elementwise (R271). -/
def vecEachwise (opc f : Nat) : Bool :=
  (decide (0x48 ≤ opc) && decide (opc ≤ 0x4C)) || decide (opc = 0x4E) || decide (opc = 0x4F) ||
  (decide (opc = 0x50) && decide (f = 0))

/-- The formats and shapes that a major accepts (R284 to R293). -/
def vecShapes (opc f : Nat) (d a b : Plane) : Bool :=
  let w := elemBits d.fmt
  match opc with
  | 0x48 | 0x49 => sameClass d.fmt a.fmt && a.spreads d &&
      (!vecUsesB opc f || (sameClass d.fmt b.fmt && b.spreads d))
  | 0x4A => decide (d.fmt = fN8) && sameClass a.fmt b.fmt && a.spreads d && b.spreads d
  | 0x4B => isArith d.fmt && isArith a.fmt && decide (elemBits a.fmt = w) && a.spreads d &&
      (!vecUsesB opc f || (isArith b.fmt && decide (elemBits b.fmt = w) && b.spreads d))
  | 0x4C => isInteger d.fmt && isInteger a.fmt && decide (elemBits a.fmt = w) && a.spreads d &&
      isInteger b.fmt && b.spreads d
  | 0x4D => decide (d.rows = a.rows) && decide (d.cols = 1) &&
      (if f < 4 then sameClass d.fmt a.fmt else isArith a.fmt && decide (d.fmt = fI32))
  | 0x4E => a.spreads d &&
      (if 4 ≤ f then decide (d.fmt = fBF16) && decide (a.fmt = fBF16)
        else (decide (d.fmt = fFP32) || decide (d.fmt = fBF16)) && (decide (a.fmt = fFP32) || decide (a.fmt = fBF16)))
  | 0x4F => a.shaped d && !(d.had && a.had)
  | 0x50 => isArith d.fmt && decide (d.fmt = a.fmt) && isInteger b.fmt &&
      (match f with
        | 0 => a.spreads d && b.spreads d
        | 1 => b.spreads d && (decide (a.rows = d.rows) || decide (a.rows = 1))
        | 2 => decide (b.cols = 1) && (decide (b.rows = d.rows) || decide (b.rows = 1)) && decide (a.cols = d.cols)
        | _ => a.shaped d && b.shaped d)
  | 0x51 => isArith d.fmt && decide (d.fmt = a.fmt) &&
      (match f with
        | 0 => decide (d.rows = a.cols) && decide (d.cols = a.rows)
        | 1 => a.shaped d
        | _ => a.shaped d && decide (a.cols % 2 = 0))
  | _ => false

/-- Whether a major rounds or reduces its results under CTL (R272, R273). -/
def vecRounds (opc f : Nat) : Bool := decide (opc = 0x48) || decide (opc = 0x49) || (decide (opc = 0x4D) && decide (f < 4))

/-- The rules of step 3 of R275, but for the page rule: D, A, B (B unused where the major does not use it). -/
def vecRules (opc f ctl : Nat) (d a b : Plane) : Bool :=
  let srcs := a :: (if vecUsesB opc f then [b] else [])
  ((d :: srcs).all fun p => decide (p.fmt ≠ fACC96) && decide (p.rows ≤ 4095) && decide (p.cols ≤ 4095) && !p.spr) &&
  vecShapes opc f d a b &&
  (!(vecRounds opc f && isInteger d.fmt) || decide (ctl % 4 = 0)) &&
  srcs.all fun p => if p.identical d then vecEachwise opc f else p.disjoint d

/-- The key rule of a VCVT whose source has HAD (R278). -/
def keysAgree (f : Nat) (d a : Handle) : Bool := !(a.had && decide (f = 4)) || (decide (a.row0 = d.row0) && decide (a.col0 = d.col0))

/-! ### Issue (R275) -/

/-- A handle as the operand rules see it: in the address space of its slot. -/
def Handle.virtPlane (h : Handle) : Plane :=
  h.plane h.base.toNat (if h.slay = 0 then 0 else h.scaleBase.toNat)

/-- Translates the handles of a vector major in order (R275, step 4). -/
def State.xlateVector (s : State) (k : Nat) : List (Handle × Bool) → Except (BitVec 10 × Word) (State × List Plane)
  | [] => .ok (s, [])
  | (h, dest) :: l =>
    match s.xlatePlane k (if dest then .store else .load) 1 16 h with
    | .error e => .error e
    | .ok (s, p) => (State.xlateVector s k l).map fun r => (r.1, p :: r.2)

/-- The key block of a VCVT from its handles: words 5 and 6 of the command (R278). -/
def keyBlock (f : Nat) (d a : Handle) : Word × Word :=
  let key := if d.had ∨ f = 4 then d else a
  let hseed := if d.had then d.hseed else if a.had then a.hseed else 0
  (key.row0 ++ d.tid, hseed ++ key.col0)

/-- The words of the command of an instruction (R276). -/
def Slot.vecWords (sl : Slot) (k opc f ctl : Nat) (d a : Plane) (y : Word × Word) : Vector Word 8 :=
  let dv := d.vec
  let av := a.vec
  #v[fields [(opc, 0), (f, 8), (ctl, 11), ((keySlot k).val, 16), ((decide (2 ≤ sl.cls.toNat)).toNat, 19),
       (sl.jobcol.toNat, 20), (sl.asid.toNat, 28)],
     fields [(sl.ctxid.toNat, 0), (sl.step.toNat, 32)], BitVec.ofNat 64 dv,
     BitVec.ofNat 64 (dv / 2 ^ 64 + av % 2 ^ 32 * 2 ^ 32), BitVec.ofNat 64 (av / 2 ^ 32), y.1, y.2, 0]

/-- Posts a command to the vector unit of the issuing core: the release, the bead, the guards, the inbox. -/
def State.vecPost (s : State) (k : Nat) (w : Vector Word 8) (spans : List (BitVec 16 × Nat × Nat)) : State :=
  let c := keyCore k
  let s := s.release k
  let cmd := s.newCmd k w true none spans
  let s := (s.modSlot k fun sl => sl.beadUp 2).enterRanges c c (s.slot k).ctxid cmd.id (vecRanges w)
  s.bump.modCore c fun co => { co with vecIn := co.vecIn ++ [cmd] }

/-- Whether the inbox of a vector unit has room (R279). -/
def State.vecRoom (s : State) (c : Nat) : Bool := decide ((s.core c).vecIn.length < 8)

/-- The issue of a vector instruction (R275); `tb` is not used where the major does not use it. -/
def State.vecIssue (s : State) (k opc f ctl : Nat) (td ta tb : HandleNo) : Act :=
  let sl := s.slot k
  let d := sl.handle td
  let a := sl.handle ta
  let b := sl.handle tb
  let hs := d :: a :: (if vecUsesB opc f then [b] else [])
  match s.missing hs with
  | some n => .undef n
  | none =>
    if !d.ok (decide (opc = 0x4F) && decide (f = 4)) ∨ hs.tail.any fun h => !h.ok false then .trap 0x003#10 0
    else if !vecRules opc f ctl d.virtPlane a.virtPlane b.virtPlane ∨ (opc = 0x4F ∧ !keysAgree f d a) then .trap 0x003#10 0
    else
      match s.xlateVector k ((d, true) :: hs.tail.map fun h => (h, false)) with
      | .error (e, va) => .trap e va
      | .ok (s, planes) =>
        let pd := planes.getD 0 (d.plane 0 0)
        let pa := planes.getD 1 (a.plane 0 0)
        let bv := if vecUsesB opc f then (planes.getD 2 (b.plane 0 0)).vec else 0
        let y := if opc = 0x4F then keyBlock f d a else (BitVec.ofNat 64 bv, BitVec.ofNat 64 (bv / 2 ^ 64))
        let w := sl.vecWords k opc f ctl pd pa y
        match s.issueWait k (some 2) (vecRanges w).length none (s.vecRoom (keyCore k)) .vectorRoom with
        | some wt => .wait s wt
        | none => .next (s.vecPost k w (hs.flatMap fun h => h.spans sl.asid))

/-- A vector instruction (R281): 2 cycles. -/
def State.vecInsn (s : State) (feats : List Nat) (opc f ctl : Nat) (td ta tb : HandleNo) (g : PredNo) :
    Host.Outcome State Fault Refusal :=
  s.run { feats := feats, engine := true } 4 2 g fun k => s.vecIssue k opc f ctl td ta tb

/-- VMAP_ADD (R284). -/
def execVmapAdd (td ta tb : HandleNo) (ctl : BitVec 3) (g : PredNo) (s : State) :
    Host.Outcome State Fault Refusal := s.vecInsn [32] 0x48 0 ctl.toNat td ta tb g

/-- VMAP_SUB (R284). -/
def execVmapSub (td ta tb : HandleNo) (ctl : BitVec 3) (g : PredNo) (s : State) :
    Host.Outcome State Fault Refusal := s.vecInsn [32] 0x48 1 ctl.toNat td ta tb g

/-- VMAP_MUL (R284). -/
def execVmapMul (td ta tb : HandleNo) (ctl : BitVec 3) (g : PredNo) (s : State) :
    Host.Outcome State Fault Refusal := s.vecInsn [32] 0x48 2 ctl.toNat td ta tb g

/-- VMAP_MIN (R284). -/
def execVmapMin (td ta tb : HandleNo) (ctl : BitVec 3) (g : PredNo) (s : State) :
    Host.Outcome State Fault Refusal := s.vecInsn [32] 0x48 3 ctl.toNat td ta tb g

/-- VMAP_MAX (R284). -/
def execVmapMax (td ta tb : HandleNo) (ctl : BitVec 3) (g : PredNo) (s : State) :
    Host.Outcome State Fault Refusal := s.vecInsn [32] 0x48 4 ctl.toNat td ta tb g

/-- VMAP_ABS (R284). -/
def execVmapAbs (td ta : HandleNo) (ctl : BitVec 3) (g : PredNo) (s : State) :
    Host.Outcome State Fault Refusal := s.vecInsn [32] 0x48 5 ctl.toNat td ta 0 g

/-- VMAP_NEG (R284). -/
def execVmapNeg (td ta : HandleNo) (ctl : BitVec 3) (g : PredNo) (s : State) :
    Host.Outcome State Fault Refusal := s.vecInsn [32] 0x48 6 ctl.toNat td ta 0 g

/-- VFMA_FMA (R285). -/
def execVfmaFma (td ta tb : HandleNo) (ctl : BitVec 3) (g : PredNo) (s : State) :
    Host.Outcome State Fault Refusal := s.vecInsn [32] 0x49 0 ctl.toNat td ta tb g

/-- VFMA_FMS (R285). -/
def execVfmaFms (td ta tb : HandleNo) (ctl : BitVec 3) (g : PredNo) (s : State) :
    Host.Outcome State Fault Refusal := s.vecInsn [32] 0x49 1 ctl.toNat td ta tb g

/-- VFMA_FNMA (R285). -/
def execVfmaFnma (td ta tb : HandleNo) (ctl : BitVec 3) (g : PredNo) (s : State) :
    Host.Outcome State Fault Refusal := s.vecInsn [32] 0x49 2 ctl.toNat td ta tb g

/-- VFMA_FNMS (R285). -/
def execVfmaFnms (td ta tb : HandleNo) (ctl : BitVec 3) (g : PredNo) (s : State) :
    Host.Outcome State Fault Refusal := s.vecInsn [32] 0x49 3 ctl.toNat td ta tb g

/-- VCMP_EQ (R286). -/
def execVcmpEq (td ta tb : HandleNo) (g : PredNo) (s : State) :
    Host.Outcome State Fault Refusal := s.vecInsn [32] 0x4A 0 0 td ta tb g

/-- VCMP_NE (R286). -/
def execVcmpNe (td ta tb : HandleNo) (g : PredNo) (s : State) :
    Host.Outcome State Fault Refusal := s.vecInsn [32] 0x4A 1 0 td ta tb g

/-- VCMP_LT (R286). -/
def execVcmpLt (td ta tb : HandleNo) (g : PredNo) (s : State) :
    Host.Outcome State Fault Refusal := s.vecInsn [32] 0x4A 2 0 td ta tb g

/-- VCMP_LE (R286). -/
def execVcmpLe (td ta tb : HandleNo) (g : PredNo) (s : State) :
    Host.Outcome State Fault Refusal := s.vecInsn [32] 0x4A 3 0 td ta tb g

/-- VCMP_GT (R286). -/
def execVcmpGt (td ta tb : HandleNo) (g : PredNo) (s : State) :
    Host.Outcome State Fault Refusal := s.vecInsn [32] 0x4A 4 0 td ta tb g

/-- VCMP_GE (R286). -/
def execVcmpGe (td ta tb : HandleNo) (g : PredNo) (s : State) :
    Host.Outcome State Fault Refusal := s.vecInsn [32] 0x4A 5 0 td ta tb g

/-- VCMP_UN (R286). -/
def execVcmpUn (td ta tb : HandleNo) (g : PredNo) (s : State) :
    Host.Outcome State Fault Refusal := s.vecInsn [32] 0x4A 6 0 td ta tb g

/-- VCMP_ORD (R286). -/
def execVcmpOrd (td ta tb : HandleNo) (g : PredNo) (s : State) :
    Host.Outcome State Fault Refusal := s.vecInsn [32] 0x4A 7 0 td ta tb g

/-- VLOG_AND (R287). -/
def execVlogAnd (td ta tb : HandleNo) (g : PredNo) (s : State) :
    Host.Outcome State Fault Refusal := s.vecInsn [32] 0x4B 0 0 td ta tb g

/-- VLOG_OR (R287). -/
def execVlogOr (td ta tb : HandleNo) (g : PredNo) (s : State) :
    Host.Outcome State Fault Refusal := s.vecInsn [32] 0x4B 1 0 td ta tb g

/-- VLOG_XOR (R287). -/
def execVlogXor (td ta tb : HandleNo) (g : PredNo) (s : State) :
    Host.Outcome State Fault Refusal := s.vecInsn [32] 0x4B 2 0 td ta tb g

/-- VLOG_ANDN (R287). -/
def execVlogAndn (td ta tb : HandleNo) (g : PredNo) (s : State) :
    Host.Outcome State Fault Refusal := s.vecInsn [32] 0x4B 3 0 td ta tb g

/-- VLOG_NOT (R287). -/
def execVlogNot (td ta : HandleNo) (g : PredNo) (s : State) :
    Host.Outcome State Fault Refusal := s.vecInsn [32] 0x4B 4 0 td ta 0 g

/-- VLOG_MNOT (R287). -/
def execVlogMnot (td ta : HandleNo) (g : PredNo) (s : State) :
    Host.Outcome State Fault Refusal := s.vecInsn [32] 0x4B 5 0 td ta 0 g

/-- VSHF_SHL (R288). -/
def execVshfShl (td ta tb : HandleNo) (g : PredNo) (s : State) :
    Host.Outcome State Fault Refusal := s.vecInsn [32] 0x4C 0 0 td ta tb g

/-- VSHF_SHR (R288). -/
def execVshfShr (td ta tb : HandleNo) (g : PredNo) (s : State) :
    Host.Outcome State Fault Refusal := s.vecInsn [32] 0x4C 1 0 td ta tb g

/-- VSHF_SAR (R288). -/
def execVshfSar (td ta tb : HandleNo) (g : PredNo) (s : State) :
    Host.Outcome State Fault Refusal := s.vecInsn [32] 0x4C 2 0 td ta tb g

/-- VSHF_RSHR (R288). -/
def execVshfRshr (td ta tb : HandleNo) (g : PredNo) (s : State) :
    Host.Outcome State Fault Refusal := s.vecInsn [32] 0x4C 3 0 td ta tb g

/-- VRED_SUM (R289). -/
def execVredSum (td ta : HandleNo) (ctl : BitVec 3) (g : PredNo) (s : State) :
    Host.Outcome State Fault Refusal := s.vecInsn [32] 0x4D 0 ctl.toNat td ta 0 g

/-- VRED_MAX (R289). -/
def execVredMax (td ta : HandleNo) (ctl : BitVec 3) (g : PredNo) (s : State) :
    Host.Outcome State Fault Refusal := s.vecInsn [32] 0x4D 1 ctl.toNat td ta 0 g

/-- VRED_MIN (R289). -/
def execVredMin (td ta : HandleNo) (ctl : BitVec 3) (g : PredNo) (s : State) :
    Host.Outcome State Fault Refusal := s.vecInsn [32] 0x4D 2 ctl.toNat td ta 0 g

/-- VRED_AMAX (R289). -/
def execVredAmax (td ta : HandleNo) (ctl : BitVec 3) (g : PredNo) (s : State) :
    Host.Outcome State Fault Refusal := s.vecInsn [32] 0x4D 3 ctl.toNat td ta 0 g

/-- VRED_IMAX (R289). -/
def execVredImax (td ta : HandleNo) (g : PredNo) (s : State) :
    Host.Outcome State Fault Refusal := s.vecInsn [32] 0x4D 4 0 td ta 0 g

/-- VRED_IMIN (R289). -/
def execVredImin (td ta : HandleNo) (g : PredNo) (s : State) :
    Host.Outcome State Fault Refusal := s.vecInsn [32] 0x4D 5 0 td ta 0 g

/-- VXF_EXP2 (R290). -/
def execVxfExp2 (td ta : HandleNo) (ctl : BitVec 3) (g : PredNo) (s : State) :
    Host.Outcome State Fault Refusal := s.vecInsn [32, 33] 0x4E 0 ctl.toNat td ta 0 g

/-- VXF_LOG2 (R290). -/
def execVxfLog2 (td ta : HandleNo) (ctl : BitVec 3) (g : PredNo) (s : State) :
    Host.Outcome State Fault Refusal := s.vecInsn [32, 33] 0x4E 1 ctl.toNat td ta 0 g

/-- VXF_RCP (R290). -/
def execVxfRcp (td ta : HandleNo) (ctl : BitVec 3) (g : PredNo) (s : State) :
    Host.Outcome State Fault Refusal := s.vecInsn [32, 33] 0x4E 2 ctl.toNat td ta 0 g

/-- VXF_RSQRT (R290). -/
def execVxfRsqrt (td ta : HandleNo) (ctl : BitVec 3) (g : PredNo) (s : State) :
    Host.Outcome State Fault Refusal := s.vecInsn [32, 33] 0x4E 3 ctl.toNat td ta 0 g

/-- VXF_SIN (R290). -/
def execVxfSin (td ta : HandleNo) (ctl : BitVec 3) (g : PredNo) (s : State) :
    Host.Outcome State Fault Refusal := s.vecInsn [32, 34] 0x4E 4 ctl.toNat td ta 0 g

/-- VXF_COS (R290). -/
def execVxfCos (td ta : HandleNo) (ctl : BitVec 3) (g : PredNo) (s : State) :
    Host.Outcome State Fault Refusal := s.vecInsn [32, 34] 0x4E 5 ctl.toNat td ta 0 g

/-- VCVT_RNE (R291). -/
def execVcvtRne (td ta : HandleNo) (ctl : BitVec 1) (g : PredNo) (s : State) :
    Host.Outcome State Fault Refusal := s.vecInsn [32] 0x4F 0 ctl.toNat td ta 0 g

/-- VCVT_RTZ (R291). -/
def execVcvtRtz (td ta : HandleNo) (ctl : BitVec 1) (g : PredNo) (s : State) :
    Host.Outcome State Fault Refusal := s.vecInsn [32] 0x4F 1 ctl.toNat td ta 0 g

/-- VCVT_RDN (R291). -/
def execVcvtRdn (td ta : HandleNo) (ctl : BitVec 1) (g : PredNo) (s : State) :
    Host.Outcome State Fault Refusal := s.vecInsn [32] 0x4F 2 ctl.toNat td ta 0 g

/-- VCVT_RUP (R291). -/
def execVcvtRup (td ta : HandleNo) (ctl : BitVec 1) (g : PredNo) (s : State) :
    Host.Outcome State Fault Refusal := s.vecInsn [32] 0x4F 3 ctl.toNat td ta 0 g

/-- VCVT_SRK (R291). -/
def execVcvtSrk (td ta : HandleNo) (ctl : BitVec 1) (g : PredNo) (s : State) :
    Host.Outcome State Fault Refusal := s.vecInsn [32, 40] 0x4F 4 ctl.toNat td ta 0 g

/-- VSEL_SEL (R292). -/
def execVselSel (td ta tb : HandleNo) (g : PredNo) (s : State) :
    Host.Outcome State Fault Refusal := s.vecInsn [32] 0x50 0 0 td ta tb g

/-- VSEL_GATH (R292). -/
def execVselGath (td ta tb : HandleNo) (g : PredNo) (s : State) :
    Host.Outcome State Fault Refusal := s.vecInsn [32] 0x50 1 0 td ta tb g

/-- VSEL_RGATH (R292). -/
def execVselRgath (td ta tb : HandleNo) (g : PredNo) (s : State) :
    Host.Outcome State Fault Refusal := s.vecInsn [32] 0x50 2 0 td ta tb g

/-- VSEL_CMPR (R292). -/
def execVselCmpr (td ta tb : HandleNo) (g : PredNo) (s : State) :
    Host.Outcome State Fault Refusal := s.vecInsn [32] 0x50 3 0 td ta tb g

/-- VPERM_TR (R293). -/
def execVpermTr (td ta : HandleNo) (g : PredNo) (s : State) :
    Host.Outcome State Fault Refusal := s.vecInsn [32] 0x51 0 0 td ta 0 g

/-- VPERM_REV (R293). -/
def execVpermRev (td ta : HandleNo) (g : PredNo) (s : State) :
    Host.Outcome State Fault Refusal := s.vecInsn [32] 0x51 1 0 td ta 0 g

/-- VPERM_ZIP (R293). -/
def execVpermZip (td ta : HandleNo) (g : PredNo) (s : State) :
    Host.Outcome State Fault Refusal := s.vecInsn [32] 0x51 2 0 td ta 0 g

/-- VPERM_UNZIP (R293). -/
def execVpermUnzip (td ta : HandleNo) (g : PredNo) (s : State) :
    Host.Outcome State Fault Refusal := s.vecInsn [32] 0x51 3 0 td ta 0 g

/-! ### Posts to the inbox (R279) -/

/-- VECTOR_INBOX_POST (R279): refused with 0x203, retried, or accepted. -/
def execVectorInboxPost (n : Nat) (s : State) : Host.Outcome State Fault Refusal :=
  s.event (match s.arriving n with
    | none => s
    | some p =>
      match p.inbox with
      | .vector c =>
        let r := vecReplyTo c p.w
        if r.rkind = 0 ∨ r.rkind = 3 then s.failPost n p 0x203#10
        else if !s.vecRoom c then s.refusePost n p
        else
          let s := (s.dropPost n).postAccepted p.id
          let x := s.prepare c c (s.slot (slotKey c r.slot)).ctxid (p.cmd c r.ctxid) (vecRanges p.w) r
          x.1.modCore c fun co => { co with vecIn := co.vecIn ++ [x.2] }
      | _ => s)

/-! ### Elements -/

/-- A tile of codes with their poison. -/
abbrev Codes := Array (Array (Nat × Bool))

/-- The codes of a plane. -/
def State.codes (s : State) (c : Nat) (p : Plane) : Codes :=
  ((List.range p.rows).map fun r => (s.rowCodes c p r).toArray).toArray

/-- The code at (r, c). -/
def codeOf (x : Codes) (r c : Nat) : Nat × Bool := (x.getD r #[]).getD c (0, false)

/-- The code that a source gives destination element (r, c) (R270). -/
def pick (p : Plane) (x : Codes) (r c : Nat) : Nat × Bool :=
  codeOf x (if p.rows = 1 then 0 else r) (if p.cols = 1 then 0 else c)

/-- Writes a destination row by row: each element's code, its poison and its flags. -/
def State.vecWrite (s : State) (c : Nat) (d : Plane) (elem : Nat → Nat → (Nat × Bool) × BitVec 7) : Done :=
  let out := gatherRows ((List.range d.rows).map fun r =>
    let es := (List.range d.cols).map fun k => elem r k
    (s.rowCells c d r (es.map (·.1)), es.foldl (fun f e => f ||| e.2) 0))
  (s.engineWrite out.1, out.2, 0)

/-- An elementwise major: a function of the codes of its sources (R270, R271, R283). -/
def State.vecEach (s : State) (c : Nat) (d : Plane) (srcs : List Plane) (f : List Nat → Flagged Nat) : Done :=
  let data := srcs.map fun p => (p, s.codes c p)
  s.vecWrite c d fun r k =>
    let xs := data.map fun e => pick e.1 e.2 r k
    let o := f (xs.map (·.1))
    ((o.1, xs.any (·.2)), o.2)

/-- The integer that a code of the integer class stands for (R30). -/
def intVal (fmt code : Nat) : Int := if fmt = fN8 then (code % 256 : Nat) else twos (elemBits fmt) code

/-- A result of the float class rounded once under CTL (R272). -/
def roundFloat (fmt ctl : Nat) (v : Flagged Val) : Flagged Nat :=
  let o := encodeVal fmt ⟨ctl % 4, decide (4 ≤ ctl), 0⟩ v.1
  (o.1, v.2 ||| o.2)

/-- A result of the integer class reduced under CTL (R273). -/
def reduceInt (fmt ctl : Nat) (v : Int) : Flagged Nat :=
  let lim := intLimits fmt
  if ctl < 4 then (lowBits (elemBits fmt) v, 0)
  else if v < lim.1 then (lowBits (elemBits fmt) lim.1, flOF ||| flSAT)
  else if lim.2 < v then (lowBits (elemBits fmt) lim.2, flOF ||| flSAT)
  else (lowBits (elemBits fmt) v, 0)

/-- The smaller value: −0 below +0, NaN if either is NaN (R284). -/
def Val.least (x y : Val) : Flagged Val :=
  match x.cmp y with
  | none => (.nan false, x.snan ||| y.snan)
  | some .lt => (x, 0)
  | some .gt => (y, 0)
  | some .eq => (if x.isNeg then x else y, 0)

/-- The larger value: +0 above −0, NaN if either is NaN (R284). -/
def Val.most (x y : Val) : Flagged Val :=
  match x.cmp y with
  | none => (.nan false, x.snan ||| y.snan)
  | some .lt => (y, 0)
  | some .gt => (x, 0)
  | some .eq => (if x.isNeg then y else x, 0)

/-! ### VMAP, VFMA, VCMP, VLOG, VSHF (R284 to R288) -/

/-- VMAP in the float class. -/
def vmapFloat (f mode : Nat) (a b : Val) : Flagged Val :=
  match f with
  | 0 => a.add mode b
  | 1 => a.add mode b.neg
  | 2 => a.mul b
  | 3 => a.least b
  | 4 => a.most b
  | 5 => (a.abs, 0)
  | _ => (a.neg, 0)

/-- VMAP in the integer class. -/
def vmapInt (f : Nat) (a b : Int) : Int :=
  match f with
  | 0 => a + b
  | 1 => a - b
  | 2 => a * b
  | 3 => min a b
  | 4 => max a b
  | 5 => a.natAbs
  | _ => -a

/-- abs and neg on an equal format: the sign bit alone (R284). -/
def signBit (fmt f x : Nat) : Nat :=
  let top := 2 ^ (elemBits fmt - 1)
  if f = 5 then x % top else x ^^^ top

/-- VMAP performed (R284). -/
def State.vmapDo (s : State) (c : Nat) (w : Vector Word 8) : Done :=
  let f := vecF w
  let ctl := vecCtl w
  let d := (vecD w).fmt
  let a := (vecA w).fmt
  let b := (vecB w).fmt
  s.vecEach c (vecD w) (vecSources w) fun xs =>
    let x := xs.getD 0 0
    let y := xs.getD 1 0
    if isInteger d then reduceInt d ctl (vmapInt f (intVal a x) (intVal b y))
    else if 5 ≤ f ∧ d = a then (signBit d f x, 0)
    else roundFloat d ctl (vmapFloat f (ctl % 4) (decodeElem a x) (decodeElem b y))

/-- VFMA performed (R285). -/
def State.vfmaDo (s : State) (c : Nat) (w : Vector Word 8) : Done :=
  let f := vecF w
  let ctl := vecCtl w
  let d := (vecD w).fmt
  let a := (vecA w).fmt
  let b := (vecB w).fmt
  s.vecEach c (vecD w) [vecA w, vecB w, vecD w] fun xs =>
    let x := xs.getD 0 0
    let y := xs.getD 1 0
    let z := xs.getD 2 0
    if isInteger d then
      reduceInt d ctl (signed (decide (2 ≤ f)) 1 * (intVal a x * intVal b y) + signed (decide (f % 2 = 1)) 1 * intVal d z)
    else
      let p := (decodeElem a x).mul (decodeElem b y)
      let v := (p.1.negIf (decide (2 ≤ f))).add (ctl % 4) ((decodeElem d z).negIf (decide (f % 2 = 1)))
      roundFloat d ctl (v.1, p.2 ||| v.2)

/-- The condition of VCMP on an order, nothing for unordered (R286). -/
def vcmpHolds (f : Nat) (o : Option Ordering) : Bool :=
  match f with
  | 0 => o = some .eq
  | 1 => o ≠ some .eq
  | 2 => o = some .lt
  | 3 => o = some .lt ∨ o = some .eq
  | 4 => o = some .gt
  | 5 => o = some .gt ∨ o = some .eq
  | 6 => o.isNone
  | _ => o.isSome

/-- VCMP performed (R286). -/
def State.vcmpDo (s : State) (c : Nat) (w : Vector Word 8) : Done :=
  let f := vecF w
  s.vecEach c (vecD w) [vecA w, vecB w] fun xs =>
    let x := decodeElem (vecA w).fmt (xs.getD 0 0)
    let y := decodeElem (vecB w).fmt (xs.getD 1 0)
    let o := x.cmp y
    ((vcmpHolds f o).toNat, x.snan ||| y.snan ||| (if o.isNone ∧ 2 ≤ f ∧ f ≤ 5 then flNV else 0))

/-- VLOG on codes of `w` bits (R287). -/
def vlogBits (w f x y : Nat) : Nat :=
  match f with
  | 0 => x &&& y
  | 1 => x ||| y
  | 2 => x ^^^ y
  | 3 => x ^^^ (x &&& y)
  | 4 => 2 ^ w - 1 - x
  | _ => if x = 0 then 1 else 0

/-- VLOG performed (R287). -/
def State.vlogDo (s : State) (c : Nat) (w : Vector Word 8) : Done :=
  s.vecEach c (vecD w) (vecSources w) fun xs =>
    (vlogBits (elemBits (vecD w).fmt) (vecF w) (xs.getD 0 0) (xs.getD 1 0), 0)

/-- VSHF on a code of an integer format by a count (R288). -/
def vshfBits (fmt f x : Nat) (n : Int) : Nat :=
  let w := elemBits fmt
  if n < 0 ∨ (w : Int) ≤ n then (if f = 2 ∧ twos w x < 0 then 2 ^ w - 1 else 0)
  else
    let k := n.toNat
    match f with
    | 0 => x * 2 ^ k % 2 ^ w
    | 1 => x / 2 ^ k
    | 2 => lowBits w (twos w x / 2 ^ k)
    | _ =>
      let v := intVal fmt x
      lowBits w (signed (decide (v < 0)) (Ratio.round ⟨v.natAbs, 1, -n⟩ 0 (decide (v < 0)) 0 0).1)

/-- VSHF performed (R288). -/
def State.vshfDo (s : State) (c : Nat) (w : Vector Word 8) : Done :=
  s.vecEach c (vecD w) [vecA w, vecB w] fun xs =>
    (vshfBits (vecA w).fmt (vecF w) (xs.getD 0 0) (intVal (vecB w).fmt (xs.getD 1 0)), 0)

/-! ### VRED (R289) -/

/-- What a reduction combines two values into, exactly. -/
def redCombine (f mode : Nat) (x y : Val) : Flagged Val :=
  match f with
  | 0 => x.add mode y
  | 2 => x.least y
  | _ => x.most y

/-- An internal node of a float reduction: rounded to FP32 with RNE. -/
def redNode (f : Nat) (x y : Val) : Flagged Val :=
  let v := redCombine f 0 x y
  let o := encodeVal fFP32 ⟨0, false, 0⟩ v.1
  (decodeElem fFP32 o.1, v.2 ||| o.2)

/-- One level of the tree. -/
def redLevel (f : Nat) : List Val → Flagged (List Val)
  | x :: y :: l =>
    let n := redNode f x y
    let r := redLevel f l
    (n.1 :: r.1, n.2 ||| r.2)
  | l => (l, 0)

/-- The tree down to at most two values, in at most `fuel` levels. -/
def redTree (f : Nat) : Nat → List Val → Flagged (List Val)
  | 0, l => (l, 0)
  | fuel + 1, l =>
    if l.length ≤ 2 then (l, 0)
    else
      let n := redLevel f l
      let r := redTree f fuel n.1
      (r.1, n.2 ||| r.2)

/-- The padding value of a float reduction. -/
def redPad (f : Nat) : Val := if f = 1 then .inf true else if f = 2 then .inf false else .fin false 0 0

/-- Levels of a tree over `n` columns: P is 2 to this power. -/
def redDepth (n : Nat) : Nat := if n ≤ 1 then 0 else Nat.log2 (n - 1) + 1

/-- The reduction of a row of the float class, before its last rounding. -/
def redFloat (f mode : Nat) (xs : List Val) : Flagged Val :=
  let leaves := if f = 3 then xs.map Val.abs else xs
  let depth := redDepth xs.length
  let t := redTree f depth (leaves ++ List.replicate (2 ^ depth - xs.length) (redPad f))
  match t.1 with
  | [x, y] => let v := redCombine f mode x y; (v.1, t.2 ||| v.2)
  | l => (l.headD (redPad f), t.2)

/-- The reduction of a row of the integer class, exactly. -/
def redInt (f : Nat) (xs : List Int) : Int :=
  match f with
  | 0 => xs.foldl (· + ·) 0
  | 1 => xs.foldl max (xs.headD 0)
  | 2 => xs.foldl min (xs.headD 0)
  | _ => xs.foldl (fun m x => max m (x.natAbs : Int)) 0

/-- The lowest index of a NaN, or else of the greatest (least) value. -/
def argBest (f : Nat) (xs : List Val) : Nat :=
  match xs.findIdx? Val.isNan with
  | some i => i
  | none =>
    (((List.range xs.length).zip xs).foldl (fun (o : Option (Nat × Val)) e =>
      match o with
      | none => some e
      | some b => if e.2.cmp b.2 = some (if f = 4 then .gt else .lt) then some e else some b) none).elim 0 (·.1)

/-- VRED performed (R289). -/
def State.vredDo (s : State) (c : Nat) (w : Vector Word 8) : Done :=
  let f := vecF w
  let ctl := vecCtl w
  let a := (vecA w).fmt
  let d := (vecD w).fmt
  s.vecWrite c (vecD w) fun r _ =>
    let row := s.rowCodes c (vecA w) r
    let vals := row.map fun e => decodeElem a e.1
    let o : Flagged Nat :=
      if 4 ≤ f then (argBest f vals, vals.foldl (fun g v => g ||| v.snan) 0)
      else if isInteger a then reduceInt d ctl (redInt f (row.map fun e => intVal a e.1))
      else roundFloat d ctl (redFloat f (ctl % 4) vals)
    ((o.1, row.any (·.2)), o.2)

/-! ### VXF, VCVT (R290, R291) -/

/-- VXF performed (R290). -/
def State.vxfDo (s : State) (c : Nat) (w : Vector Word 8) : Done :=
  let ctl := vecCtl w
  s.vecEach c (vecD w) [vecA w] fun xs =>
    vxfVal (vecF w) (vecD w).fmt ⟨ctl % 4, decide (4 ≤ ctl), 0⟩ (decodeElem (vecA w).fmt (xs.getD 0 0))

/-- VCVT performed (R291). -/
def State.vcvtDo (s : State) (c : Nat) (w : Vector Word 8) : Done :=
  let d := vecD w
  let a := vecA w
  let key := vecKey w
  let mode := vecF w
  let out := gatherRows ((List.range d.rows).map fun r =>
    let x : Flagged (List Elem) := (s.rowValues c a r, 0)
    let x := if a.had then hadIn key mode r x.1 else x
    let y := if d.had then hadOut key mode r x.1 else (x.1, 0)
    let o := s.convertRow c d key mode (decide (vecCtl w = 1)) r y.1
    (s.outCells c d r o, x.2 ||| y.2 ||| o.flags))
  (s.engineWrite out.1, out.2, 0)

/-! ### VSEL, VPERM (R292, R293) -/

/-- Element (r, k) of VSEL with its poison: from the tiles of D, A and B. -/
def vselElem (f : Nat) (pd pa pb : Plane) (d a b : Codes) (r k : Nat) : Nat × Bool :=
  match f with
  | 0 =>
    let m := pick pb b r k
    let x := if m.1 ≠ 0 then pick pa a r k else codeOf d r k
    (x.1, x.2 || m.2)
  | 1 =>
    let m := pick pb b r k
    let i := intVal pb.fmt m.1
    let x := if i < 0 ∨ (pa.cols : Int) ≤ i then (0, false) else codeOf a (if pa.rows = 1 then 0 else r) i.toNat
    (x.1, x.2 || m.2)
  | 2 =>
    let m := pick pb b r 0
    let i := intVal pb.fmt m.1
    let x := if i < 0 ∨ (pa.rows : Int) ≤ i then (0, false) else codeOf a i.toNat k
    (x.1, x.2 || m.2)
  | _ =>
    let mask := (List.range pd.cols).map fun j => codeOf b r j
    let kept := ((List.range pd.cols).zip mask).filter fun e => e.2.1 ≠ 0
    let bad := mask.any (·.2)
    match kept[k]? with
    | some e => let x := codeOf a r e.1; (x.1, x.2 || bad)
    | none => (0, bad)

/-- VSEL performed (R292). -/
def State.vselDo (s : State) (c : Nat) (w : Vector Word 8) : Done :=
  let d := s.codes c (vecD w)
  let a := s.codes c (vecA w)
  let b := s.codes c (vecB w)
  s.vecWrite c (vecD w) fun r k => (vselElem (vecF w) (vecD w) (vecA w) (vecB w) d a b r k, 0)

/-- The source element of VPERM for destination (r, k), in a source of `cols` columns. -/
def vpermFrom (f cols r k : Nat) : Nat × Nat :=
  match f with
  | 0 => (k, r)
  | 1 => (r, cols - 1 - k)
  | 2 => (r, if k % 2 = 0 then k / 2 else k / 2 + cols / 2)
  | _ => (r, if k < cols / 2 then 2 * k else 2 * (k - cols / 2) + 1)

/-- VPERM performed (R293). -/
def State.vpermDo (s : State) (c : Nat) (w : Vector Word 8) : Done :=
  let a := s.codes c (vecA w)
  s.vecWrite c (vecD w) fun r k =>
    let i := vpermFrom (vecF w) (vecA w).cols r k
    (codeOf a i.1 i.2, 0)

/-! ### Starting a command (R279, R281) -/

/-- Whether the codes of a command are assigned (R296). -/
def vecCodes (w : Vector Word 8) : Bool :=
  let f := vecF w
  let ctl := vecCtl w
  (match vecOpc w with
    | 0x48 => decide (f ≤ 6)
    | 0x49 => decide (f ≤ 3)
    | 0x4A => decide (ctl = 0)
    | 0x4B => decide (f ≤ 5) && decide (ctl = 0)
    | 0x4C => decide (f ≤ 3) && decide (ctl = 0)
    | 0x4D => decide (f ≤ 5) && (decide (f < 4) || decide (ctl = 0))
    | 0x4E => decide (f ≤ 5)
    | 0x4F => decide (f ≤ 4) && decide (ctl ≤ 1)
    | 0x50 => decide (f ≤ 3) && decide (ctl = 0)
    | 0x51 => decide (f ≤ 3) && decide (ctl = 0)
    | _ => false) &&
  (vecD w :: vecSources w).all fun p => decide (p.slay ≤ 2)

/-- Whether a plane lies in one page of the scratchpad (R268). -/
def Plane.inPage (p : Plane) : Bool :=
  (p.ranges false).all fun r => decide (r.1 % 0x10000 + r.2.1 ≤ 0x10000) && decide (r.1 < 0x40000)

/-- The cause that ends a posted command at its start, 0 for none (R279). -/
def State.vecJudge (s : State) (c : Nat) (w : Vector Word 8) : BitVec 10 :=
  let keyed := decide (vecOpc w = 0x4F) && decide (vecF w = 4)
  if !vecCodes w then 0x002
  else if !(vecD w).ok keyed ∨ ((vecSources w).any fun p => !p.ok false) ∨
      ((vecD w :: vecSources w).any fun p => !p.inPage) ∨
      !vecRules (vecOpc w) (vecF w) (vecCtl w) (vecD w) (vecA w) (vecB w) ∨
      (vecOpc w = 0x4F ∧ !(if (vecD w).had ∨ keyed then vecD w else vecA w).aligned (vecKey w).col0) then 0x003
  else if !bit w[0] 19 ∧ (vecNamed w).any fun r => !s.frameOk c (bits w[0] 43 28) r then 0x310
  else 0

/-- The cost of a row chunk (R281). -/
def vecChunk (w : Vector Word 8) : Nat :=
  let f := vecF w
  match vecOpc w with
  | 0x4E => if f < 4 then 4 else 8
  | 0x4F =>
    let slow (p : Plane) : Bool := decide (blockLen p.fmt ≠ 0) || p.had
    if slow (vecD w) || slow (vecA w) then 2 else 1
  | 0x50 => if f = 0 then 1 else 2
  | 0x51 => if f = 0 then 2 else 1
  | _ => 1

/-- Cycles for which a command occupies the unit (R281). -/
def vecTime (w : Vector Word 8) : Nat :=
  let p := if vecOpc w = 0x4D ∨ vecOpc w = 0x51 then vecA w else vecD w
  8 + p.rows * ((p.cols + 63) / 64) * vecChunk w + (if vecOpc w = 0x4D then 8 * p.rows else 0)

/-- Starts the command at the head of a vector unit's inbox: what it performs, then its reply is due. -/
def State.vecStart (s : State) (c : Nat) (cmd : Cmd) (perform : State → Nat → Vector Word 8 → Done) : State :=
  let cause := if cmd.insn then 0 else s.vecJudge c cmd.w
  let d := if cause = 0 then perform s c cmd.w else (s, 0, cause)
  d.1.modCore c fun co =>
    { co with vecIn := co.vecIn.tail, vecRun := co.vecRun ++ [⟨cmd, d.2.2, d.2.1, false, 0, 0⟩],
              vecFree := s.cycle + vecTime cmd.w }

/-- The start of the command at the head of the inbox, where its OPC is one of these, the unit is free and
what it waits for is there (R180, R279, R281). -/
def State.vecCommand (s : State) (c : Nat) (opc : Nat → Bool) (perform : State → Nat → Vector Word 8 → Done) : State :=
  match (s.core c).vecIn with
  | [] => s
  | cmd :: _ =>
    let r := vecReplyTo c cmd.w
    if !opc (vecOpc cmd.w) ∨ s.cycle < (s.core c).vecFree then s
    else
      let x := s.prepare c c (s.slot (slotKey c r.slot)).ctxid cmd (vecRanges cmd.w) r
      if x.2.prepared r then x.1.vecStart c x.2 perform
      else x.1.modCore c fun co => { co with vecIn := x.2 :: co.vecIn.tail }

/-- VEC_CMD_VMAP (R284); a reserved OPC ends here too, with 0x002 (R279). -/
def execVecCmdVmap (core : Nat) (s : State) : Host.Outcome State Fault Refusal :=
  .next (s.vecCommand core (fun o => o = 0x48 || o < 0x48 || 0x51 < o) State.vmapDo)

/-- VEC_CMD_VFMA (R285). -/
def execVecCmdVfma (core : Nat) (s : State) : Host.Outcome State Fault Refusal :=
  .next (s.vecCommand core (· = 0x49) State.vfmaDo)

/-- VEC_CMD_VCMP (R286). -/
def execVecCmdVcmp (core : Nat) (s : State) : Host.Outcome State Fault Refusal :=
  .next (s.vecCommand core (· = 0x4A) State.vcmpDo)

/-- VEC_CMD_VLOG (R287). -/
def execVecCmdVlog (core : Nat) (s : State) : Host.Outcome State Fault Refusal :=
  .next (s.vecCommand core (· = 0x4B) State.vlogDo)

/-- VEC_CMD_VSHF (R288). -/
def execVecCmdVshf (core : Nat) (s : State) : Host.Outcome State Fault Refusal :=
  .next (s.vecCommand core (· = 0x4C) State.vshfDo)

/-- VEC_CMD_VRED (R289). -/
def execVecCmdVred (core : Nat) (s : State) : Host.Outcome State Fault Refusal :=
  .next (s.vecCommand core (· = 0x4D) State.vredDo)

/-- VEC_CMD_VXF (R290). -/
def execVecCmdVxf (core : Nat) (s : State) : Host.Outcome State Fault Refusal :=
  .next (s.vecCommand core (· = 0x4E) State.vxfDo)

/-- VEC_CMD_VCVT (R291). -/
def execVecCmdVcvt (core : Nat) (s : State) : Host.Outcome State Fault Refusal :=
  .next (s.vecCommand core (· = 0x4F) State.vcvtDo)

/-- VEC_CMD_VSEL (R292). -/
def execVecCmdVsel (core : Nat) (s : State) : Host.Outcome State Fault Refusal :=
  .next (s.vecCommand core (· = 0x50) State.vselDo)

/-- VEC_CMD_VPERM (R293). -/
def execVecCmdVperm (core : Nat) (s : State) : Host.Outcome State Fault Refusal :=
  .next (s.vecCommand core (· = 0x51) State.vpermDo)

/-- VECTOR_REPLY (R280): replies in start order; a fault that LANE retries starts again first. -/
def execVectorReply (core : Nat) (s : State) : Host.Outcome State Fault Refusal :=
  s.event (match (s.core core).vecRun with
    | [] => s
    | st :: rest =>
      let r := vecReplyTo core st.cmd.w
      let s := s.modCore core fun co => { co with vecRun := rest }
      match s.lanesAgain st r.slot 2 with
      | some (i, f) =>
        (s.modCore core fun co => { co with vecIn := { st.cmd with tries := st.cmd.tries + 1 } :: co.vecIn }).commandRetry
          i f st.cmd.tries
      | none => s.endCommand core st r 2 (st.cause.setWidth 64) 0)

end Sys2Proof.Machine
end

