-- ==== Sys2Proof/Machine/Reckoner.lean ====
section
/-! DEFINITION. The Reckoners (R369 to R388): row pages, QPOST, QAPND, QSTAT, the scan of a bank and its
record. -/

namespace Sys2Proof.Machine

/-! ### Layout (R369, R372, R375) -/

/-- Offset of row `j` in a row page of stride `rb` (R369). -/
def rowOff (rb j : Nat) : Nat := j % 32 * 0x10000 + j / 32 * rb

/-- QL: bytes of the padded query of `d` elements (R372). -/
def queryLen (d : Nat) : Nat := 64 * ((2 * d + 63) / 64)

/-- RS: bytes of a record for `dv` elements (R372). -/
def recordLen (dv : Nat) : Nat := 32 + 32 * ((dv + 7) / 8)

/-- Bytes of a query block (R372). -/
def queryBlock (d dv : Nat) : Nat := 64 + queryLen d + 32 * recordLen dv

def rkOpc (w : Vector Word 8) : Nat := bits w[0] 7 0
def rkF (w : Vector Word 8) : Nat := bits w[0] 10 8
def rkColour (w : Vector Word 8) : Nat := bits w[0] 26 21
def rkCore (w : Vector Word 8) : Nat := bits w[6] 29 18
def rkBlock (w : Vector Word 8) : Nat := bits w[6] 17 0
def rkAnchor (w : Vector Word 8) : Int := twos 16 (bits w[6] 45 30)
def rkScale (w : Vector Word 8) : Nat := bits w[5] 63 32
def rkSnap (w : Vector Word 8) : Nat := bits w[5] 31 0

/-- One of the two pages of a command: its physical address, COLS, RSTRIDE and leaf (R375). -/
structure RowPage where
  pa   : Nat
  cols : Nat
  rb   : Nat
  leaf : Word
  deriving DecidableEq, Repr

/-- The page that word 2 or 3 names. -/
def rowPage (w leaf : Word) : RowPage := ⟨bits w 47 21 * 2 ^ 21, bits w 18 10, bits w 9 0, leaf⟩

/-- The word of a page (R375). -/
def pageWord (pa : Nat) (h : Handle) : Word := fields [(pa / 2 ^ 21 % 2 ^ 27, 21), (h.cols, 10), (h.rstride, 0)]

def Query.keys (y : Query) : RowPage := rowPage y.cmd.w[2] y.kleaf
def Query.vals (y : Query) : RowPage := rowPage y.cmd.w[3] y.vleaf

/-- The bank set of a command, numbered over the module: stack · 32 + set. -/
def setOf (pa : Nat) : Nat := stackOf pa * 32 + bankSet pa

/-- The queue of a bank set. -/
def State.bankQueue (s : State) (set : Nat) : List Query := AMap.get [] (s.stack (set / 32)).queues (set % 32)

def State.setQueue (s : State) (set : Nat) (l : List Query) : State :=
  s.modStack (set / 32) fun t => { t with queues := t.queues.set (set % 32) l }

/-- Whether the queue of a bank set has room (R376). -/
def State.bankRoom (s : State) (set : Nat) : Bool := decide ((s.bankQueue set).length < 8)

/-- The reply target of a command (R375, R381). -/
def rkReplyTo (w : Vector Word 8) : ReplyTo where
  rkind := bits w[0] 15 14
  bead := ix 4 (bits w[0] 17 16)
  slot := bits w[0] 20 18
  colour := rkColour w
  value := w[7]
  core := rkCore w
  off := rkBlock w + 0x20
  mb := 0
  type := 0
  ctxid := w[1].setWidth 32

/-! ### Issue (R374, R382) -/

/-- Step 3 of R374 for a key or value handle. -/
def Handle.rowsOk (h : Handle) : Bool :=
  decide (h.fmt = fBF16) && decide (h.slay = 0) && !h.had && !h.spr && !h.srk && decide (1 ≤ h.cols) &&
  decide (h.cols ≤ 256) && decide (2 * h.cols ≤ h.rstride) && decide (h.rstride ≤ 512)

/-- Step 3 of R374. -/
def queryOk (td ta tb : Handle) : Bool :=
  decide (td.fmt = fN8) && decide (td.rows = 1) && decide (td.base.toNat % 64 = 0) && ta.rowsOk && tb.rowsOk &&
  decide (queryBlock ta.cols tb.cols ≤ td.cols)

/-- Step 6 of R374: the page at a handle's BASE, a compute-capable one of the own module. -/
def State.ccPage (s : State) (k : Nat) (kind : AccKind) (va : Word) : Except (BitVec 10 × Word) (State × Xlate) :=
  match s.translate (keyCore k) (s.slot k).asid (s.slot k).cls kind va with
  | .error e => .error (e, va)
  | .ok x => if x.tt ≠ 0 ∨ !x.cc ∨ nodeOf x.key ≠ s.node then .error (0x106#10, va) else .ok (s.fillTlb (keyCore k) x, x)

/-- Step 7 of R374 for one handle: whether it stays in its CC mapping. -/
def Handle.inPage (h : Handle) (j1 : Nat) : Bool :=
  decide (h.base.toNat % 2 ^ 21 = 0) && decide ((h.rows + 31) / 32 * h.rstride ≤ 0x10000) && decide (j1 ≤ h.rows)

/-- Word 0 of a command (R375). -/
def Slot.rkWord (sl : Slot) (k opc f rkind bead : Nat) : Word :=
  fields [(opc, 0), (f, 8), (rkind, 14), (bead, 16), ((keySlot k).val, 18), (sl.jobcol.toNat, 21), (sl.asid.toNat, 28)]

/-- Posts a command to the queue of a bank set, with its waits (R374, R384). -/
def State.rkPost (s : State) (k set : Nat) (bead : Option (Fin 4)) (guards : List (GuardSpace × Nat × Nat × Bool))
    (cmd : Cmd) (y : Cmd → Query) : Act :=
  let c := keyCore k
  match s.issueWait k bead guards.length none (s.bankRoom set) (.bankRoom set) with
  | some wt => .wait s wt
  | none =>
    let s := s.release k
    let s := match bead with
      | some b => s.modSlot k fun sl => sl.beadUp b
      | none => s
    let s := guards.foldl (fun s g =>
      s.enterGuard c ⟨0, g.1, g.2.1, g.2.2.1, g.2.2.2, some cmd.id, c, (s.slot k).ctxid⟩) s
    .next (s.bump.setQueue set (s.bankQueue set ++ [y cmd]))

/-- The query elements in the words of the block from offset 0x40 on. -/
def queryElems (l : List Word) (d : Nat) : List (BitVec 16) :=
  (List.range d).map fun i => (l.getD (8 + i / 4) 0).extractLsb' (16 * (i % 4)) 16

/-- The command of a QPOST (R375). -/
def Slot.queryWords (sl : Slot) (k f blk kpa vpa : Nat) (ta tb : Handle) (l : List Word) : Vector Word 8 :=
  let w (i : Nat) : Word := l.getD i 0
  #v[sl.rkWord k 0x59 f f 0, sl.ctxid.setWidth 64, pageWord kpa ta, pageWord vpa tb, w 0,
     fields [(bits (w 1) 63 32, 32), (bits (w 1) 31 0, 0)],
     fields [(bits (w 2) 15 0, 30), (keyCore k, 18), (blk, 0)], w 3]

/-- QPOST (R374). -/
def State.qpost (s : State) (f : Nat) (td ta tb : HandleNo) (g : PredNo) : Host.Outcome State Fault Refusal :=
  s.run { feats := [50], engine := true } 4 3 g fun k =>
    let sl := s.slot k
    let c := keyCore k
    let d := sl.handle td
    let a := sl.handle ta
    let b := sl.handle tb
    match s.missing [d, a, b] with
    | some n => .undef n
    | none =>
      if !d.ok false ∨ !a.ok false ∨ !b.ok false ∨ !queryOk d a b then .trap 0x003#10 0
      else
        match (s.release k).ordinaryWords c sl.asid sl.cls d.base (8 + (2 * a.cols + 7) / 8) with
        | .error (e, va) => .trap e va
        | .ok (s, l) =>
          let w (i : Nat) : Word := l.getD i 0
          let j1 := bits (w 0) 63 32
          if bits (w 2) 63 16 ≠ 0 ∨ w 5 ≠ 0 ∨ w 6 ≠ 0 ∨ w 7 ≠ 0 ∨ j1 < bits (w 0) 31 0 then .trap 0x003#10 0
          else
            let len := queryBlock a.cols b.cols
            match s.xlateRange k .atomic 1 64 d.base len with
            | .error (e, va) => .trap e va
            | .ok (s, blk) =>
              match s.ccPage k .load a.base with
              | .error (e, va) => .trap e va
              | .ok (s, xa) =>
                match s.ccPage k .load b.base with
                | .error (e, va) => .trap e va
                | .ok (s, xb) =>
                  if !a.inPage j1 then .trap 0x110#10 a.base
                  else if !b.inPage j1 then .trap 0x110#10 b.base
                  else if bits (BitVec.ofNat 48 xa.pa) 28 21 ≠ bits (BitVec.ofNat 48 xb.pa) 28 21 then .trap 0x340#10 b.base
                  else
                    let key : GuardSpace × Nat × Nat × Bool := (.virt sl.asid, a.base.toNat, 2 ^ 21, false)
                    let val : GuardSpace × Nat × Nat × Bool := (.virt sl.asid, b.base.toNat, 2 ^ 21, false)
                    let guards := (.phys, s.winKey c blk, len, true) :: key :: (if a.base = b.base then [] else [val])
                    let cmd := s.newCmd k (sl.queryWords k f blk xa.pa xb.pa a b l) true none
                      [(sl.asid, d.base.toNat, len), (sl.asid, a.base.toNat, 2 ^ 21), (sl.asid, b.base.toNat, 2 ^ 21)]
                    s.rkPost k (setOf xa.pa) (if f = 0 then some 0 else none) guards cmd fun cmd =>
                      ⟨cmd, queryElems l a.cols, xa.leaf, xb.leaf, 0, 0, false, 0, [], []⟩

/-- QPOST_LD (R374). -/
def execQpostLd (td ta tb : HandleNo) (g : PredNo) (s : State) : Host.Outcome State Fault Refusal := s.qpost 0 td ta tb g

/-- QPOST_FLAG (R374). -/
def execQpostFlag (td ta tb : HandleNo) (g : PredNo) (s : State) : Host.Outcome State Fault Refusal := s.qpost 1 td ta tb g

/-- The command of a QAPND (R375): n and the offset of the source. -/
def Slot.appendWords (sl : Slot) (k f pa n src : Nat) (td : Handle) : Vector Word 8 :=
  #v[sl.rkWord k 0x5A f 0 1, sl.ctxid.setWidth 64, pageWord pa td, 0, BitVec.ofNat 64 n, BitVec.ofNat 64 src,
     fields [(keyCore k, 18)], 0]

/-- QAPND (R382): `ta` is nothing for clr. -/
def State.qapnd (s : State) (f : Nat) (td : HandleNo) (ta : Option HandleNo) (g : PredNo) :
    Host.Outcome State Fault Refusal :=
  s.run { feats := [50], engine := true } 4 3 g fun k =>
    let sl := s.slot k
    let d := sl.handle td
    let a := ta.map sl.handle
    match s.missing (d :: a.toList) with
    | some n => .undef n
    | none =>
      if !d.ok false ∨ (a.any fun h => !h.ok false) ∨ !d.rowsOk ∨
          (f = 0 ∧ a.any fun h => h.fmt ≠ fBF16 || h.cols ≠ d.cols) then .trap 0x003#10 0
      else
        match s.ccPage k .store d.base with
        | .error (e, va) => .trap e va
        | .ok (s, x) =>
          if !d.inPage 0 then .trap 0x110#10 d.base
          else
            let source : Except (BitVec 10 × Word) (State × Nat × Nat) := match f, a with
              | 0, some h => (s.xlateRange k .load 1 64 h.base h.span).map fun r => (r.1, r.2, h.span)
              | _, _ => .ok (s, 0, 0)
            match source with
            | .error (e, va) => .trap e va
            | .ok (s, src, span) =>
              let guards : List (GuardSpace × Nat × Nat × Bool) :=
                if f = 0 then [(.phys, s.winKey (keyCore k) src, span, false), (.virt sl.asid, d.base.toNat, 2 ^ 21, true)]
                else []
              let page := (sl.asid, d.base.toNat, 2 ^ 21)
              let spans := if f = 0 then [page, (sl.asid, (a.elim 0 Handle.base).toNat, span)] else [page]
              let cmd := s.newCmd k (sl.appendWords k f x.pa (a.elim 0 Handle.rows) src d) true none spans
              s.rkPost k (setOf x.pa) (some 1) guards cmd fun cmd =>
                ⟨cmd, [], x.leaf, 0, d.rows, a.elim 0 Handle.rstride, false, 0, [], []⟩

/-- QAPND_PUT (R382). -/
def execQapndPut (td ta : HandleNo) (g : PredNo) (s : State) : Host.Outcome State Fault Refusal := s.qapnd 0 td (some ta) g

/-- QAPND_ADV (R382). -/
def execQapndAdv (td ta : HandleNo) (g : PredNo) (s : State) : Host.Outcome State Fault Refusal := s.qapnd 1 td (some ta) g

/-- QAPND_CLR (R382). -/
def execQapndClr (td : HandleNo) (g : PredNo) (s : State) : Host.Outcome State Fault Refusal := s.qapnd 2 td none g

/-- QSTAT (R383): one round trip to the controller. -/
def State.qstat (s : State) (op : MemOp) (d : Dst) (a : Src) : Host.Outcome State Fault Refusal :=
  s.run { feats := [50] } 4 2 0 fun k =>
    let va := (s.slot k).read a
    match s.ccPage k .load va with
    | .error (e, va) => .trap e va
    | .ok (s, x) => s.ask k x va op (.value d) 4 2

/-- QSTAT_ROWS (R383). -/
def execQstatRows (d : Dst) (a : Src) (s : State) : Host.Outcome State Fault Refusal := s.qstat .rows d a

/-- QSTAT_UNIT (R383). -/
def execQstatUnit (d : Dst) (a : Src) (s : State) : Host.Outcome State Fault Refusal := s.qstat .unit d a

/-! ### Arithmetic (R377) -/

/-- rne(): rounds to FP32 (R38, R377). -/
def rne (v : Val) : Val := decodeElem fFP32 (encodeVal fFP32 ⟨0, false, 0⟩ v).1

/-- L2E of R377. -/
def l2e : Val := decodeElem fFP32 0x3FB8AA3B

/-- x − y. -/
def Val.sub (x y : Val) : Val := (Val.add 0 x y.neg).1

/-- exp2(rne(rne(x − y) · L2E)). -/
def weight (x y : Val) : Val :=
  decodeElem fFP32 (vxfVal 0 fFP32 ⟨0, false, 0⟩ (rne ((rne (x.sub y)).mul l2e).1)).1

/-- The exact sum of a score, in units of 2^ANCH before reduction: its terms, whether a factor is no
number, and whether a term meets the test of WIDEN. -/
structure Score where
  sum   : Int
  bad   : Bool
  widen : Bool
  deriving DecidableEq, Repr

/-- One term of a score (R32, R34, R377, R378). -/
def Score.term (z : Score) (anch : Int) (x y : Val) : Score :=
  match x, y with
  | .fin s m e, .fin t n f =>
    { z with sum := z.sum + (floor2 (s != t) (m * n) (e + f) anch).1,
             widen := z.widen || (decide (m * n ≠ 0) && decide (anch + 94 < logOf (m * n) (e + f) + 24)) }
  | _, _ => { z with bad := true }

/-- The score of a key row (R377). -/
def scoreOf (anch : Int) (q k : List Val) : Score := (q.zip k).foldl (fun z e => z.term anch e.1 e.2) ⟨0, false, false⟩

/-- x of R377: the score as FP32, scaled. -/
def scaled (anch : Int) (sum : Int) (scale : Val) : Val :=
  rne ((rne (.ofInt (twos 96 (lowBits 96 sum)) anch)).mul scale).1

/-- The triple of a bank with no rows (R377). -/
def Triple.start (dv : Nat) : Triple :=
  ⟨.inf true, .fin false 0 0, List.replicate dv (.fin false 0 0), [], false, false, false, false⟩

/-- A row whose score is `x` enters the triple (R377). -/
def Triple.add (t : Triple) (x : Val) (v : List Val) : Triple :=
  let t := if x.cmp t.m = some .gt then
      let c := weight t.m x
      { t with l := rne (t.l.mul c).1, acc := t.acc.map fun a => rne (a.mul c).1, m := x }
    else t
  let p := weight x t.m
  { t with l := rne (Val.add 0 t.l p).1,
           acc := (t.acc.zip v).map fun e => rne (Val.add 0 e.1 (rne (p.mul e.2).1)).1 }

/-- One row of a scan from its score and its values (R377, R378). -/
def Triple.row (t : Triple) (anch : Int) (scale : Val) (q k v : List Val) : Triple :=
  let z := scoreOf anch q k
  let t := { t with widen := t.widen || z.widen }
  if z.bad then { t with stop := true }
  else
    let x := scaled anch z.sum scale
    match x with
    | .inf false => { t with stop := true }
    | .inf true => t
    | _ => t.add x v

/-! ### Reading rows (R379) -/

/-- Resolves the words of a read, and says whether one was corrected or rebuilt (R358). -/
def State.resolveRow (s : State) (ws : List Nat) : State × Bool :=
  ws.foldl (fun (r : State × Bool) w =>
    let s := r.1
    let mends := if s.poison.contains (s.own (8 * w) / 8) then false
      else if s.wordOut w then s.rebuildable w
      else decide ((s.stack (stackOf (8 * w))).eccAt w = some .correctable)
    (s.resolveWord w, r.2 || mends)) (s, false)

/-- The rows that bank `b` scans, ascending (R376). -/
def Query.rows (y : Query) (b : Nat) : List Nat :=
  let j0 := bits y.cmd.w[4] 31 0
  let j1 := Nat.min (bits y.cmd.w[4] 63 32) (rkSnap y.cmd.w)
  let first := j0 + (b + 32 - j0 % 32) % 32
  (List.range ((j1 + 31 - first) / 32)).map fun i => first + 32 * i

/-- The elements in the bytes of a row. -/
def rowElems (b : List Byte) (n : Nat) : List Val :=
  (List.range n).map fun i => decodeElem fBF16 (leNat ((b.drop (2 * i)).take 2))

/-- A row whose bytes have all been read enters the triple, or is excluded (R377, R379); after a NaN stop no
further row is read (R378). -/
def Scan.row (z : Scan) (y : Query) (j : Nat) (js : List Nat) : Scan :=
  let q := y.q.map fun c => decodeElem fBF16 c.toNat
  let t := if z.bad then { z.triple with excl := z.triple.excl ++ [j] }
    else z.triple.row (rkAnchor y.cmd.w) (decodeElem fFP32 (rkScale y.cmd.w)) q (rowElems z.got y.keys.cols)
      (rowElems (z.got.drop (2 * y.keys.cols)) y.vals.cols)
  { z with todo := if t.stop then [] else js, got := [], bad := false, triple := t }

/-- The place of byte `off` of row `j` of a page. -/
def State.rowKey (s : State) (p : RowPage) (j off : Nat) : Nat := s.own (p.pa + rowOff p.rb j + off)

/-- Reads `n` bytes of a row page for a scan: what is read, whether it excludes the row, and whether a word was
mended (R142, R358, R379). A row is opened by its first byte. -/
def State.readPart (s : State) (p : RowPage) (j off n : Nat) : State × List Byte × Bool × Bool :=
  let key := s.rowKey p j off
  let r := (if off = 0 then s.open key n else s).resolveRow (wordsOf (paOf key) n)
  match r.1.readMem key n (bit p.leaf 12) (bit p.leaf 13) with
  | .error _ => (r.1, List.replicate n 0, true, r.2)
  | .ok (s, b) => (s, b, false, r.2)

/-- The bytes of a part of a row of `rest` bytes that is to hold `n` from `key` on: a part ends with the row or with a
whole word, so that each word of the row is read once. -/
def partBytes (key n rest : Nat) : Nat :=
  if rest ≤ n then rest
  else
    let whole := (key + n) / 8 * 8 - key
    Nat.min rest (if whole = 0 then 8 - key % 8 else whole)

/-- One part of a scan: about `n` bytes of the key row, or of the value row, of the row that comes next; the
rest of `n`, which is 0 where the part does not end that row, where the scan pauses at a held row (R379) and where it
ends at a retired frame (R385). -/
def State.scanPart (s : State) (y : Query) (z : Scan) (n : Nat) : State × Scan × Nat :=
  match z.todo with
  | [] => (s, z, 0)
  | j :: js =>
    let d := 2 * y.keys.cols
    let keyed := decide (z.got.length < d)
    let p := if keyed then y.keys else y.vals
    let off := if keyed then z.got.length else z.got.length - d
    let key := s.rowKey p j off
    let m := partBytes key n (2 * p.cols - off)
    if s.retiredIn key then
      let base := (y.cmd.spans.getD (if keyed then 1 else 2) (0, 0, 0)).2.1
      (s, { z with fail := some (BitVec.ofNat 64 (base + rowOff p.rb j)) }, 0)
    else if s.heldRange key m then (s, { z with triple := { z.triple with held := true } }, 0)
    else
      let (s, b, bad, mended) := s.readPart p j off m
      let z := { z with got := z.got ++ b, bad := z.bad || bad,
                        triple := { z.triple with corrected := z.triple.corrected || mended } }
      (s, if z.got.length < d + 2 * y.vals.cols then z else z.row y j js, if off + m < 2 * p.cols then 0 else n - m)

/-- A scan reads up to `n` bytes, in at most as many parts as its rows have halves (R380, R384). -/
def State.scanParts (y : Query) : Nat → State → Scan → Nat → State × Scan
  | 0, s, z, _ => (s, z)
  | fuel + 1, s, z, n =>
    if n = 0 then (s, z) else let r := s.scanPart y z n; State.scanParts y fuel r.1 r.2.1 r.2.2

/-- A scan reads up to `n` bytes. -/
def State.scanBank (s : State) (y : Query) (z : Scan) (n : Nat) : State × Scan :=
  State.scanParts y (2 * z.todo.length) s z n

/-- The scan of bank `b` as it begins (R376). -/
def Query.scan (y : Query) (b : Nat) : Scan := ⟨b, y.rows b, [], false, .start y.vals.cols, none⟩

/-- The bytes of a record (R373), with its LAT; `n` rows lie in the range. -/
def Triple.record (t : Triple) (n dv lat : Nat) : List Byte :=
  let code (v : Val) : Nat := if t.stop then 0x7FC00000 else (encodeVal fFP32 ⟨0, false, 0⟩ v).1
  let nan := t.stop || (t.m :: t.l :: t.acc).any Val.isNan
  let x := t.excl.length
  let stat := t.corrected.toNat + 2 * (decide (0 < x)).toNat + 4 * t.held.toNat + 8 * (decide (4 < x)).toNat +
    16 * t.widen.toNat + 32 * nan.toNat + 256 * Nat.min x 255 + 65536 * Nat.min n 0xFFFF
  let rec_ := leBytes (code t.m) 4 ++ leBytes (code t.l) 4 ++ leBytes stat 4 ++ leBytes lat 4 ++
    ((List.range 4).flatMap fun i => leBytes (t.excl.getD i 0xFFFFFFFF) 4) ++ t.acc.flatMap fun v => leBytes (code v) 4
  rec_ ++ List.replicate (recordLen dv - (32 + 4 * dv)) 0

/-! ### Replies (R381) -/

/-- The records of a query that ended with 0x382 hold undefined bytes (R381, log 18). -/
def State.spoilRecords (s : State) (y : Query) : State :=
  let w := y.cmd.w
  let base := rkBlock w + 0x40 + queryLen y.keys.cols
  let n := 32 * recordLen y.vals.cols
  s.engineWrite ((List.range n).map fun i =>
    (s.winKey (rkCore w) (base + i), Config.faultedRecord (s.tick * 2 ^ 16 + i), false))

/-- The reply of a command that has left its queue; one that LANE retries is queued again (R214, R381). -/
def State.rkEnd (s : State) (set : Nat) (y : Query) (cause : BitVec 10) (addr : Word) : State :=
  let st : Started := ⟨y.cmd, cause, 0, false, 0, addr⟩
  let r := rkReplyTo y.cmd.w
  match s.lanesAgain st r.slot 5 with
  | some (i, f) =>
    (s.setQueue set (s.bankQueue set ++ [{ y with
      cmd := { y.cmd with tries := y.cmd.tries + 1 }, taken := false, left := [], scans := [] }])).commandRetry
        i f y.cmd.tries
  | none =>
    let s := if cause = 0x382 ∧ rkOpc y.cmd.w = 0x59 then s.spoilRecords y else s
    s.endCommand (rkCore y.cmd.w) st r 5 0 0

/-- Removes a command from the queue of a bank set. -/
def State.dropQuery (s : State) (set id : Nat) : State :=
  s.setQueue set ((s.bankQueue set).filter fun y => y.cmd.id ≠ id)

/-! ### Arrival (R356, R376) -/

/-- Whether a command may arrive next: no earlier one of its source to the same stack is on its way
(R166, R384). -/
def State.mayArrive (s : State) (set : Nat) (y : Query) : Bool :=
  !y.taken && !(s.stack (set / 32)).queues.any fun q => q.2.any fun z =>
    !z.taken && decide (z.cmd.id < y.cmd.id) &&
      decide (z.cmd.issuer.map (fun i => (i.core, i.ctxid)) = y.cmd.issuer.map fun i => (i.core, i.ctxid))

/-- The command that event number `n` (set · 8 + position) names, where it may arrive and has this OPC
and F; F is free where `f` is nothing. -/
def State.arrivingQuery (s : State) (n opc : Nat) (f : Option Nat) : Option Query :=
  ((s.bankQueue (n / 8))[n % 8]?).filter fun y =>
    s.mayArrive (n / 8) y && decide (rkOpc y.cmd.w = opc) && (f.all fun f => decide (rkF y.cmd.w = f))

/-- ROWCNT of the granule of a page (R371). -/
def State.rowCount (s : State) (pa : Nat) : Nat := (AMap.get 0#32 (s.stack (stackOf pa)).rowcnt (pa / 2 ^ 21)).toNat

def State.setRowCount (s : State) (pa n : Nat) : State :=
  s.modStack (stackOf pa) fun t => { t with rowcnt := t.rowcnt.set (pa / 2 ^ 21) (BitVec.ofNat 32 n) }

/-- A bank at the arrival of a query: its scan begins, unless an earlier query of the set has still to be scanned
there (R376). How far it comes in this step is free (R380, R384). -/
def State.bankStart (earlier : List Query) (r : State × Query) (b : Nat) : State × Query :=
  let z := r.2.scan b
  let waits := earlier.any fun q => q.scans.any fun x => decide (x.bank = b) && decide (x.todo ≠ [])
  let x := if waits then (r.1, z) else r.1.scanBank r.2 z (Config.scanBytes (r.1.tick * 32 + b))
  (x.1, { r.2 with scans := r.2.scans ++ [x.2] })

/-- A query is taken (R376): 0x341, or the 32 banks start; a row in a retired frame ends it with 0x382 (R385). -/
def State.takeQuery (s : State) (set : Nat) (y : Query) : State :=
  let s := s.dropQuery set y.cmd.id
  let snap := rkSnap y.cmd.w
  if s.rowCount y.keys.pa < snap ∨ s.rowCount y.vals.pa < snap then s.rkEnd set y 0x341 0
  else
    let taken := (s.bankQueue set).filter Query.taken
    let coming := (s.bankQueue set).filter fun z => !z.taken
    let r := (List.range 32).foldl (State.bankStart taken)
      (s, { y with taken := true, arrived := s.ns, left := List.range 32, scans := [] })
    match r.2.scans.findSome? Scan.fail with
    | some va => r.1.rkEnd set y 0x382 va
    | none => r.1.setQueue set (taken ++ r.2 :: coming)

/-- RECKONER_QUERY (R376): `n` is set · 8 + position in its queue. -/
def execReckonerQuery (n : Nat) (s : State) : Host.Outcome State Fault Refusal :=
  s.event (match s.arrivingQuery n 0x59 none with
    | some y => s.takeQuery (n / 8) y
    | none => s)

/-! ### Records (R373, R381) -/

/-- The query whose record a bank writes next: the earliest taken one. -/
def State.scanning (s : State) (set bank : Nat) : Option Query :=
  (s.bankQueue set).find? fun y => y.taken && y.left.contains bank

/-- Replaces a query of a bank set. -/
def State.putQuery (s : State) (set : Nat) (y : Query) : State :=
  s.setQueue set ((s.bankQueue set).map fun z => if z.cmd.id = y.cmd.id then y else z)

/-- LAT: the time since a query arrived at its banks, in units of 16 ns, saturating (R373, log 16). -/
def Query.lat (y : Query) (ns : Nat) : Nat := Nat.min ((ns - y.arrived) / 16) 0xFFFFFFFF

/-- Bank `bank` writes its record; the last one has the query reply. -/
def State.writeRecord (s : State) (set : Nat) (y : Query) (z : Scan) : State :=
  let w := y.cmd.w
  let off := rkBlock w + 0x40 + queryLen y.keys.cols + recordLen y.vals.cols * z.bank
  let out := z.triple.record (y.rows z.bank).length y.vals.cols (y.lat s.ns)
  let s := s.engineWrite (((List.range out.length).zip out).map fun e => (s.winKey (rkCore w) (off + e.1), e.2, false))
  let y := { y with left := y.left.filter fun x => x ≠ z.bank }
  if y.left = [] then (s.dropQuery set y.cmd.id).rkEnd set y 0 0 else s.putQuery set y

/-- A query with a scan in the place of its bank's. -/
def Query.putScan (y : Query) (z : Scan) : Query :=
  { y with scans := y.scans.map fun x => if x.bank = z.bank then z else x }

/-- What bank `bank` of set `set` does next: its scan reads on, as far as it comes in this step (R380), and a scan
that has ended writes its record. -/
def State.bankStep (s : State) (set bank : Nat) : State :=
  match s.scanning set bank with
  | none => s
  | some y =>
    let z := (y.scans.find? fun z => z.bank = bank).getD (y.scan bank)
    let x := s.scanBank y z (Config.scanBytes (s.tick * 32 + bank) + 1)
    let y := y.putScan x.2
    match x.2.fail with
    | some va => (x.1.dropQuery set y.cmd.id).rkEnd set y 0x382 va
    | none => if x.2.todo = [] then x.1.writeRecord set y x.2 else x.1.putQuery set y

/-- RECORD (R373, R381): `set` is numbered over the module. -/
def execRecord (set bank : Nat) (s : State) : Host.Outcome State Fault Refusal :=
  s.event (s.bankStep set bank)

/-! ### Appends (R382) -/

/-- The cells that the rows of an append write; the last word says whether a byte carries poison. -/
def State.appendCells (s : State) (y : Query) (count n : Nat) : List Cell :=
  let p := y.keys
  let core := rkCore y.cmd.w
  let src := bits y.cmd.w[5] 17 0
  (List.range n).flatMap fun k => (List.range (2 * p.cols)).map fun i =>
    let key := s.winKey core (src + k * y.stride + i)
    (s.own (p.pa + rowOff p.rb (count + k) + i), Memory.read s.mem key, s.poisoned key 1)

/-- The first row that an append writes into a retired frame past its deadline, with its address (R366). -/
def State.appendRetired (s : State) (y : Query) (count n : Nat) : Option (Nat × Word) :=
  (List.range n).findSome? fun k =>
    let off := rowOff y.keys.rb (count + k)
    if s.retiredIn (s.own (y.keys.pa + off)) then
      some (k, BitVec.ofNat 64 ((y.cmd.spans.getD 0 (0, 0, 0)).2.1 + off))
    else none

/-- Writes the first `n` rows of an append. -/
def State.appendRows (s : State) (y : Query) (count n : Nat) : State :=
  let cells := s.appendCells y count n
  let s := (List.range n).foldl (fun s k =>
    let key := s.rowKey y.keys (count + k) 0
    (s.open key (2 * y.keys.cols)).eccClear key (2 * y.keys.cols)) s
  s.engineWrite cells

/-- A put or an adv at its controller: the rows, then ROWCNT (R382). A put that meets a retired frame has written the
rows before it (R366). -/
def State.append (s : State) (set : Nat) (y : Query) (put : Bool) : State :=
  let s := s.dropQuery set y.cmd.id
  let pa := y.keys.pa
  let n := bits y.cmd.w[4] 15 0
  let count := s.rowCount pa
  if y.limit < count + n then s.rkEnd set y 0x342 0
  else if !put then (s.setRowCount pa (count + n)).rkEnd set y 0 0
  else
    match s.appendRetired y count n with
    | some (k, va) => (s.appendRows y count k).rkEnd set y 0x382 va
    | none => ((s.appendRows y count n).setRowCount pa (count + n)).rkEnd set y 0 0

/-- QAPND_PUT_CMD (R382): `n` is set · 8 + position in its queue. -/
def execQapndPutCmd (n : Nat) (s : State) : Host.Outcome State Fault Refusal :=
  s.event (match s.arrivingQuery n 0x5A (some 0) with
    | some y => s.append (n / 8) y true
    | none => s)

/-- QAPND_ADV_CMD (R382). -/
def execQapndAdvCmd (n : Nat) (s : State) : Host.Outcome State Fault Refusal :=
  s.event (match s.arrivingQuery n 0x5A (some 1) with
    | some y => s.append (n / 8) y false
    | none => s)

/-- QAPND_CLR_CMD (R382). -/
def execQapndClrCmd (n : Nat) (s : State) : Host.Outcome State Fault Refusal :=
  s.event (match s.arrivingQuery n 0x5A (some 2) with
    | some y => ((s.dropQuery (n / 8) y.cmd.id).setRowCount y.keys.pa 0).rkEnd (n / 8) y 0 0
    | none => s)

end Sys2Proof.Machine
end

