-- ==== Sys2Proof/Machine/Controllers.lean ====
section
/-! DEFINITION. Events of the memory stacks: requests and replies (R355, R356), scrubbing (R360), refresh
(R353), repairs (R361, R362), rebuilding (R358) and alerts (R367). -/

namespace Sys2Proof.Machine

/-! ### Requests and replies (R154, R355, R356) -/

/-- Whether two requests touch one 8-byte word. -/
def Request.meets (r q : Request) : Bool := (wordsOf r.key r.op.size).any q.words

/-- Whether two requests come from one activation stream (R160). -/
def Request.sameSource (r q : Request) : Bool := decide (r.core = q.core) && decide (r.ctxid = q.ctxid)

/-- Request `n`, if it can reach its owner now: an owner that is a core's bank (`window`), or a stack controller or a
unit. Its node's path must be up, and no earlier request of its source to the same word still on its way (R161, R166,
R399). -/
def State.reaching (s : State) (n : Nat) (window : Bool) : Option Request :=
  (s.net.reqs[n]?).filter fun r =>
    decide ((windowCore (paOf r.key)).isSome = window) && !(s.module.down.any fun d => d.1.toNat = nodeOf r.key) &&
      !(s.net.reqs.take n).any fun q => !q.arrived && q.sameSource r && q.meets r

/-- Whether request `n` must wait at its controller: its region is held, or a request that has arrived before it waits
for the same word (R356, R362, R367). -/
def State.mustWait (s : State) (n : Nat) (r : Request) : Bool :=
  s.heldRange r.key r.op.size || (s.net.reqs.take n).any fun q => q.arrived && q.meets r

/-- Request `n`, if its owner can perform it now. -/
def State.performable (s : State) (n : Nat) (window : Bool) : Option Request :=
  (s.reaching n window).filter fun r => !s.mustWait n r

/-- The answer of a request. -/
def Request.answer (r : Request) (cont : Cont) (cause : BitVec 10) (value : Nat) : Answer :=
  ⟨r.id, r.key, r.core, r.slot, r.ctxid, r.va, cause, value, cont, r.len, r.cost⟩

/-- Sends an answer. -/
def State.reply (s : State) (a : Answer) : State := s.modNet fun q => { q with answers := q.answers ++ [a] }

/-- Performs request `n` at its owner: a posted store is done; any other sends its answer. -/
def State.perform (s : State) (n : Nat) (r : Request) : State :=
  let s := s.modNet fun q => { q with reqs := q.reqs.eraseIdx n }
  match r.cont with
  | none => s.performPosted r
  | some cont =>
    match s.performAt r.key r.op r.tol r.nan r.arrived with
    | .ok (s, v) => s.reply (r.answer cont 0 v)
    | .error e =>
      let s := if e = 0x118#10 then (s.openRows r.key r.op.size).resolve r.key r.op.size else s
      s.reply (r.answer cont e 0)

/-- Request `n` arrives at its controller and waits there, behind those that wait already. It is judged now: in a
retired frame it gets 0x382 (R366). -/
def State.takeIn (s : State) (n : Nat) (r : Request) : State :=
  if r.arrived then s
  else
    let left := s.net.reqs.eraseIdx n
    match r.cont.filter fun _ => s.retiredAt r.key with
    | some cont => (s.modNet fun q => { q with reqs := left }).reply (r.answer cont 0x382#10 0)
    | none => s.modNet fun q =>
        { q with reqs := left.takeWhile Request.arrived ++ { r with arrived := true } :: left.dropWhile Request.arrived }

/-- REQUEST (R356, R362): `n` is the position among the requests on their way. It is performed, or waits where it
must. -/
def execRequest (n : Nat) (s : State) : Host.Outcome State Fault Refusal :=
  s.event (match s.reaching n false with
    | some r => if s.mustWait n r then s.takeIn n r else s.perform n r
    | none => s)

/-- SCRATCHPAD_ACCESS (R154). -/
def execScratchpadAccess (n : Nat) (s : State) : Host.Outcome State Fault Refusal :=
  s.event (match s.performable n true with
    | some r => s.perform n r
    | none => s)

/-- The slot that waits for an answer. -/
def State.awaits (s : State) (a : Answer) : Option Nat :=
  ((List.range 8).map (slotKey a.core)).find? fun k =>
    let sl := s.slot k
    decide (sl.ctxid = a.ctxid) && decide (sl.phase = .blocked (.access a.id))

/-- Writes the result of an access, or raises its cause at the instruction (R141, R142). -/
def State.answered (s : State) (k : Nat) (a : Answer) : State :=
  if a.cause ≠ 0 then (s.awaken k).takeTrap k a.cause a.va none
  else (s.modSlot k fun sl => sl.land a.value a.cont).finishWait k a.len a.cost

/-- REPLY (R355): an answer that no wait matches is discarded and counted in ECNT.DROP of its stack. -/
def execReply (n : Nat) (s : State) : Host.Outcome State Fault Refusal :=
  s.event (match s.net.answers[n]? with
    | none => s
    | some a =>
      let s := s.modNet fun q => { q with answers := q.answers.eraseIdx n }
      match s.awaits a with
      | some k => s.answered k a
      | none =>
        if s.inStack a.key then s.modStack (stackOf (paOf a.key)) fun t => { t with drop := sat 8 t.drop } else s)

/-! ### Scrubbing (R360) -/

/-- SCRUB (R360): `word` is an 8-byte word of the stack, of its data or of its parity. A word that it marks is told by a
stack notice; whether its bank shows a fault as a whole is free (R361). -/
def execScrub (stack word : Nat) (s : State) : Host.Outcome State Fault Refusal :=
  let pa := 8 * word
  s.event (
    if stackOf pa ≠ stack ∨ hbmTop ≤ pa ∨ s.heldWord word then s
    else
      let t := (s.activate (s.own pa)).resolveWord word
      let key := s.own pa / 8
      let t := if t.poison.contains key ∧ !s.poison.contains key then t.stackNotice 0x118#10 0 pa 0 else t
      if Config.bankFault s.tick ∧ !(s.stack stack).bankOut.contains (s.bankOf pa) then t.bankFailed pa else t)

/-! ### Refresh (R353, R367) -/

/-- A refresh of a bank holds its scan that has rows left to read (R379). -/
def Query.refreshed (q : Query) (b : Nat) : Query :=
  { q with scans := q.scans.map fun z =>
      if z.bank = b ∧ z.todo ≠ [] then { z with triple := { z.triple with held := true } } else z }

/-- REFRESH (R353): one bank is refreshed, or its refresh is postponed within the standard's limit; at the end
of its refresh window its activations are counted afresh. The scan of the bank pauses for it (R379); any other access
meets none, since a step is whole. -/
def execRefresh (stack bank : Nat) (s : State) : Host.Outcome State Fault Refusal :=
  .next (
    let late := AMap.get 0 (s.stack stack).defer bank
    if Config.postpones s.tick ∧ late < Config.postponeLimit stack then
      s.modStack stack fun t => { t with defer := t.defer.set bank (late + 1) }
    else
      (s.modStack stack fun t =>
        { t with
          defer := AMap.erase t.defer bank
          acts := if Config.windowEnds s.tick then t.acts.filter fun e => e.1 % 2 ^ 16 ≠ bank % 2 ^ 16 else t.acts
          queues := t.queues.map fun e =>
            if e.1 = bank / 32 then (e.1, e.2.map fun q => q.refreshed (bank % 32)) else e }))

/-! ### Repairs (R361, R362) -/

/-- LANE_REPAIR (R361): a lane of a channel is marked: its channel is held for a repair, or marked failed
where no spare is left. -/
def execLaneRepair (stack chan : Nat) (s : State) : Host.Outcome State Fault Refusal :=
  let pa := stack % 8 * 2 ^ 21 + chan / 8 % 4 * 2 ^ 24
  let c := chan % 32
  .next (
    if (s.stack stack).lanes = 0 then
      (s.modStack stack fun t => { t with failed := t.failed ||| (1#32 <<< c) }).channelNotice 0x380#10 2 pa c 0
    else (s.modStack stack fun t => { t with lanes := t.lanes - 1 }).holdRegion stack .lane c (us 200) pa)

/-- Whether a hold covers a word of its stack. -/
def State.covers (s : State) (h : Hold) (w : Nat) : Bool :=
  match h.kind with
  | .row => h.region = Config.dramRow w
  | .lane => h.region = chanOf w
  | _ => h.region = s.bankOf (8 * w)

/-- Resolves every word of a stack that ECC finds in error and that satisfies `p`. -/
def State.resolveWhere (s : State) (st : Nat) (p : Nat → Bool) : State :=
  (((s.stack st).ecc.map Prod.fst).filter p).foldl State.resolveWord s

/-- A hold leaves. -/
def State.endHold (s : State) (st n : Nat) : State := s.modStack st fun t => { t with holds := t.holds.eraseIdx n }

/-- The n-th hold of a stack, if it is a repair (`alert` false) or an alert. -/
def State.holdAt (s : State) (st n : Nat) (alert : Bool) : Option Hold :=
  ((s.stack st).holds[n]?).filter fun h => decide (h.kind = .alert) == alert

/-- What a finished repair leaves: its words are resolved as they move, with their poison marks; a repaired
channel is rebuilt in the background (R358, R361). -/
def State.repaired (s : State) (st : Nat) (h : Hold) : State :=
  match h.kind with
  | .lane => s.modStack st fun t =>
      { t with failed := t.failed &&& ~~~(1#32 <<< h.region), rebuild := t.rebuild ||| (1#32 <<< h.region) }
  | .bank => (s.resolveWhere st (s.covers h)).modStack st fun t =>
      { t with
        rowFail := AMap.erase t.rowFail h.region
        rowsBad := t.rowsBad.filter fun e => e.1 ≠ h.region }
  | _ => s.resolveWhere st (s.covers h)

/-- REPAIR_COMPLETE (R361): a repair that ends within its bound. -/
def execRepairComplete (stack n : Nat) (s : State) : Host.Outcome State Fault Refusal :=
  s.event (match s.holdAt stack n false with
    | some h => if s.ns ≤ h.due then (s.endHold stack n).repaired stack h else s
    | none => s)

/-- Number of a kind in a stack notice (R364). -/
def HoldKind.no : HoldKind → Nat
  | .row => 1
  | .lane => 2
  | .bank => 3
  | .alert => 0

/-- What an abandoned repair leaves: its region is served under R358, a row as one that fails no more. -/
def State.abandoned (s : State) (st : Nat) (h : Hold) : State :=
  match h.kind with
  | .row => s.modStack st fun t => { t with rowsBad := (s.bankOf h.pa, h.region) :: t.rowsBad }
  | .lane => s.modStack st fun t => { t with failed := t.failed ||| (1#32 <<< h.region) }
  | .bank => s.modStack st fun t => { t with bankOut := h.region :: t.bankOut }
  | .alert => s

/-- REPAIR_TIMEOUT (R362): a repair that has not ended within its bound. -/
def execRepairTimeout (stack n : Nat) (s : State) : Host.Outcome State Fault Refusal :=
  .next (match s.holdAt stack n false with
    | some h =>
      let chan := if h.kind = .lane then h.region else chanOf (h.pa / 8)
      if h.due < s.ns then ((s.endHold stack n).abandoned stack h).channelNotice 0x381#10 h.kind.no h.pa chan 0 else s
    | none => s)

/-- Whether nothing outside a channel hinders its rebuilding: no other channel of its stripe set and no bank is out, no
word of another channel is lost, and no parity word. -/
def State.rebuilds (s : State) (st chan : Nat) : Bool :=
  let t := s.stack st
  ((List.range 8).all fun j => decide (chan / 8 * 8 + j = chan) || !t.chanOut (chan / 8 * 8 + j)) &&
    decide (t.bankOut = []) && (t.ecc.all fun e => decide (e.2 ≠ .lost) || decide (chanOf e.1 = chan)) &&
    s.poison.all fun w => decide (paOf (8 * w) < hbmEnd) || decide (nodeOf (8 * w) ≠ s.node)

/-- The words of a channel that cannot be rebuilt. -/
def State.unrebuilt (s : State) (st chan : Nat) : List Nat :=
  if s.rebuilds st chan then []
  else (List.range (hbmTop / 8)).filter fun w =>
    decide (stackOf (8 * w) = st) && decide (chanOf w = chan) && !s.rebuildable w &&
      !s.poison.contains (s.own (8 * w) / 8)

/-- REBUILD_COMPLETE (R358): a channel's contents are rebuilt; the words that cannot be are uncorrectable (R359,
R368). -/
def execRebuildComplete (stack chan : Nat) (s : State) : Host.Outcome State Fault Refusal :=
  let c := chan % 32
  s.event (
    if bit (s.stack stack).rebuild c then
      (((s.unrebuilt stack c).foldl State.markLost s).resolveWhere stack fun w => chanOf w = c).modStack stack fun t =>
        { t with rebuild := t.rebuild &&& ~~~(1#32 <<< c) }
    else s)

/-- ALERT_END (R367): the accesses and scans of the bank proceed. -/
def execAlertEnd (stack n : Nat) (s : State) : Host.Outcome State Fault Refusal :=
  .next (match s.holdAt stack n true with
    | some _ => s.endHold stack n
    | none => s)

end Sys2Proof.Machine
end

