-- ==== Sys2Proof/Machine/Ladle.lean ====
section
/-! DEFINITION. The Ladle (R298 to R320): shape records, packets, LPOST, LSHAPE, copy queues. -/

namespace Sys2Proof.Machine

/-! ### Shape records (R300 to R302) -/

/-- A shape record: the run length and the outer dimensions, dimension 1 first. -/
structure Shape where
  len0 : Nat
  dims : List (Nat × Int)
  deriving DecidableEq, Repr

/-- COUNT and STRIDE of dimension `k` + 1 of a record of eight words. -/
def shapeDim (w : Vector Word 8) (k : Nat) : Nat × Int :=
  (bits w[ix 8 (2 + k / 2)] (32 * (k % 2) + 31) (32 * (k % 2)), (w[ix 8 (4 + k)]).toInt)

/-- The shape that a record holds; nothing where it is malformed (R300, R302). -/
def shapeOf (w : Vector Word 8) : Option Shape :=
  let ndim := bits w[1] 39 32
  let used := (List.range 4).map fun k => (decide (k + 1 < ndim), shapeDim w k)
  if bits w[0] 63 52 = 0 ∧ bits w[1] 31 24 = 0 ∧ bits w[1] 23 0 ≠ 0 ∧ bits w[1] 63 40 = 0 ∧ 1 ≤ ndim ∧ ndim ≤ 5 ∧
      used.all fun e => if e.1 then e.2.1 ≠ 0 else e.2 = (0, 0) then
    some ⟨bits w[1] 23 0, (used.filter (·.1)).map (·.2)⟩
  else none

/-- The offsets of the runs in iteration order: dimension 1 fastest (R301). -/
def runOffsets : List (Nat × Int) → List Int
  | [] => [0]
  | d :: ds => (runOffsets ds).flatMap fun o => (List.range d.1).map fun (i : Nat) => o + (i : Int) * d.2

/-- Bytes of a shape (R301). -/
def Shape.total (h : Shape) : Nat := h.dims.foldl (fun n d => n * d.1) h.len0

/-- The bounding range of a shape placed at an address; nothing where an address breaks R301. -/
def Shape.bound (h : Shape) (start : Word) : Option (Nat × Nat) :=
  let ext := h.dims.map fun d => ((d.1 : Int) - 1) * d.2
  let lo := ext.foldl (fun a e => a + min 0 e) (start.toNat : Int)
  let hi := ext.foldl (fun a e => a + max 0 e) (start.toNat + h.len0 : Int)
  if 0 ≤ lo ∧ hi ≤ 2 ^ 52 then some (lo.toNat, hi.toNat) else none

/-- The runs of a shape placed at an address: address and bytes. -/
def Shape.runs (h : Shape) (start : Word) : List (Nat × Nat) :=
  (runOffsets h.dims).map fun o => (((start.toNat : Int) + o).toNat, h.len0)

/-! ### Footprints -/

/-- A translated footprint: its runs, its bounding range, and the translation of each 64 KiB page that it
visits, in the order of the first visit. -/
structure Foot where
  runs  : List (Nat × Nat)
  lo    : Nat
  hi    : Nat
  pages : List (Nat × Xlate)
  deriving DecidableEq, Repr

/-- The first address visited in each 64 KiB page of a run. -/
def runPages (r : Nat × Nat) : List Nat :=
  (List.range ((r.1 + r.2 - 1) / 0x10000 - r.1 / 0x10000 + 1)).map fun i =>
    if i = 0 then r.1 else (r.1 / 0x10000 + i) * 0x10000

/-- The first address visited in each page, without repetition. -/
def firstVisits (runs : List (Nat × Nat)) : List Nat :=
  (runs.flatMap runPages).foldl (fun l a => if l.any fun b => b / 0x10000 = a / 0x10000 then l else l ++ [a]) []

/-- Translates the pages of a footprint (R305, R306). -/
def State.footPages (s : State) (c : Nat) (asid : BitVec 16) (cls : BitVec 2) (kind : AccKind) :
    List Nat → Except (BitVec 10 × Word) (List (Nat × Xlate))
  | [] => .ok []
  | a :: l =>
    match s.translate c asid cls kind (BitVec.ofNat 64 (a / 0x10000 * 0x10000)) with
    | .error e => .error (e, BitVec.ofNat 64 a)
    | .ok x =>
      if 1 < x.tt then .error (0x106#10, BitVec.ofNat 64 a)
      else (State.footPages s c asid cls kind l).map fun r => (a / 0x10000, x) :: r

/-- A footprint of runs; one of more than 4,096 mapped pages is malformed (R302). -/
def State.foot (s : State) (c : Nat) (asid : BitVec 16) (cls : BitVec 2) (kind : AccKind)
    (runs : List (Nat × Nat)) (bound : Nat × Nat) : Except (BitVec 10 × Word) Foot :=
  match s.footPages c asid cls kind (firstVisits runs) with
  | .error e => .error e
  | .ok pages =>
    let mapped := (pages.map fun e => (e.1 * 0x10000 / 2 ^ e.2.bits, e.2.bits)).eraseDups
    if 4096 < mapped.length then .error (0x320#10, 0) else .ok ⟨runs, bound.1, bound.2, pages⟩

/-- The pieces of a footprint in iteration order. -/
def Foot.pieces (f : Foot) : List Piece :=
  f.runs.flatMap fun r => (runPages r).filterMap fun a =>
    (f.pages.find? fun p => p.1 = a / 0x10000).map fun p =>
      ⟨a, p.2, p.2.key + a % 0x10000, Nat.min (r.1 + r.2) ((a / 0x10000 + 1) * 0x10000) - a, false⟩

/-- The guard entries of a footprint: the core whose table takes each, its space, start and bytes (R314). -/
def Foot.guards (f : Foot) (c : Nat) (asid : BitVec 16) : List (Nat × GuardSpace × Nat × Nat) :=
  let hbm := if f.pages.any fun p => p.2.tt = 0 then [(c, .virt asid, f.lo, f.hi - f.lo)] else []
  f.pages.filterMap (fun p =>
    let a := Nat.max f.lo (p.1 * 0x10000)
    let b := Nat.min f.hi ((p.1 + 1) * 0x10000)
    if p.2.tt = 1 then some ((windowCore p.2.pa).getD 0, .phys, p.2.key + a % 0x10000, b - a) else none) ++ hbm

/-! ### Reading as a unit -/

/-- Reads one word as a unit at a translated address: a retired frame or a lost node refuses it, a held one makes the
step wait, and poison gives 0x118 (R308, R362, R366, R399). -/
def State.unitRead (s : State) (x : Xlate) : Except (BitVec 10) (State × List Byte) :=
  if x.tt = 0 ∧ s.retiredIn x.key then .error 0x382#10
  else if x.tt = 0 ∧ s.unreachable x.key then .error 0x3C1#10
  else (s.open x.key 8).readOp x.key 8 x.tol x.nan

/-- Reads `n` words as the Ladle: TT 0 or 1, no poison (R305, R308). -/
def State.unitWords (s : State) (c : Nat) (asid : BitVec 16) (cls : BitVec 2) (va : Word) :
    Nat → Except (BitVec 10 × Word) (State × List Word)
  | 0 => .ok (s, [])
  | n + 1 =>
    match s.translate c asid cls .load va with
    | .error e => .error (e, va)
    | .ok x =>
      if 1 < x.tt then .error (0x106#10, va)
      else
        match (s.resolveTables c asid va.toNat).unitRead x with
        | .error e => .error (e, va)
        | .ok (s, b) => (State.unitWords s c asid cls (va + 8) n).map fun r => (r.1, BitVec.ofNat 64 (leNat b) :: r.2)

/-- Reads a shape record: the shape, and its guard entry (R302, R314). -/
def State.readShape (s : State) (c : Nat) (asid : BitVec 16) (cls : BitVec 2) (va : Word) :
    Except (BitVec 10 × Word) (State × Shape × Foot) :=
  if va.toNat % 64 ≠ 0 then .error (0x320#10, 0)
  else
    match s.unitWords c asid cls va 8 with
    | .error e => .error e
    | .ok (s, l) =>
      match shapeOf (vec8 l), s.foot c asid cls .load [(va.toNat, 64)] (va.toNat, va.toNat + 64) with
      | some h, .ok f => .ok (s, h, f)
      | none, _ => .error (0x320#10, 0)
      | _, .error e => .error e

/-! ### Packets (R303 to R307) -/

def ladOpc (w : Vector Word 8) : Nat := bits w[0] 7 0
def ladColour (w : Vector Word 8) : BitVec 6 := w[0].extractLsb' 8 6
def ladRkind (w : Vector Word 8) : Nat := bits w[0] 15 14

/-- The reply target of a packet (R248, R303, R304). -/
def ladReplyTo (w : Vector Word 8) : ReplyTo where
  rkind := ladRkind w
  bead := ix 4 (bits w[0] 17 16)
  slot := bits w[0] 20 18
  colour := (ladColour w).toNat
  value := w[6]
  core := bits w[7] 39 28
  off := bits w[7] 17 0
  mb := bits w[7] 27 26
  type := bits w[7] 25 18
  ctxid := w[1].setWidth 32

/-- What a checked packet will do: its footprints and its shape records. -/
structure Carriage where
  src  : Option Foot
  dst  : Option Foot
  recs : List Foot
  deriving DecidableEq, Repr

/-- Whether CTLW, OPC and the zero fields of a packet are in order (R304, R305). -/
def packetFormed (w : Vector Word 8) : Bool :=
  decide (bits w[0] 31 21 = 0) &&
  match ladOpc w with
  | 0x10 => true
  | 0x11 => decide (w[4] = 0)
  | 0x12 => true
  | 0x13 => decide (w[2] = 0) && decide (w[3] = 0) && decide (w[4] = 0) && decide (w[5] = 0)
  | 0x14 => decide (w[3] = 0) && decide (w[4] = 0) && decide (w[5] = 0) && decide (w[2].toNat % 64 = 0)
  | _ => false

/-- Checks a copy (R305, R306): SSHAPE 0 means the destination's record (R303). -/
def State.planCopy (s : State) (c : Nat) (asid : BitVec 16) (cls : BitVec 2) (w : Vector Word 8) :
    Except (BitVec 10 × Word) (State × Carriage) := do
  let (s, dh, df) ← s.readShape c asid cls w[5]
  let (s, sh, sf) ← if w[4] = 0 then .ok (s, dh, df) else s.readShape c asid cls w[4]
  match sh.bound w[2], dh.bound w[3] with
  | some sb, some db =>
    if sh.total ≠ dh.total then .error (0x320#10, 0)
    else if overlap sb.1 (sb.2 - sb.1) db.1 (db.2 - db.1) then .error (0x322#10, 0)
    else
      let src ← s.foot c asid cls .load (sh.runs w[2]) sb
      let dst ← s.foot c asid cls .store (dh.runs w[3]) db
      .ok (s, ⟨some src, some dst, if w[4] = 0 then [df] else [df, sf]⟩)
  | _, _ => .error (0x320#10, 0)

/-- Checks a fill (R305, R306). -/
def State.planFill (s : State) (c : Nat) (asid : BitVec 16) (cls : BitVec 2) (w : Vector Word 8) :
    Except (BitVec 10 × Word) (State × Carriage) := do
  let (s, dh, df) ← s.readShape c asid cls w[5]
  match dh.bound w[3] with
  | none => .error (0x320#10, 0)
  | some db =>
    let dst ← s.foot c asid cls .store (dh.runs w[3]) db
    .ok (s, ⟨none, some dst, [df]⟩)

/-- The destination runs of a relayout: row k at the place of global row J0 + k (R307). -/
def relayoutRuns (dst j0 rb n : Nat) : List (Nat × Nat) :=
  (List.range n).map fun k => (dst + (j0 + k) % 32 * 0x10000 + (j0 + k) / 32 * rb, rb)

/-- Checks a relayout (R307). -/
def State.planRelayout (s : State) (c : Nat) (asid : BitVec 16) (cls : BitVec 2) (w : Vector Word 8) :
    Except (BitVec 10 × Word) (State × Carriage) := do
  if w[4] = 0 then .error (0x323#10, 0)
  else
    let (s, h, f) ← s.readShape c asid cls w[4]
    let rb := h.len0
    let j0 := bits w[5] 31 0
    match h.dims with
    | [(n, _)] =>
      if rb % 2 ≠ 0 ∨ 512 < rb ∨ bits w[5] 63 32 ≠ 0 ∨ w[3].toNat % 2 ^ 21 ≠ 0 ∨ 0x10000 < ((j0 + n - 1) / 32 + 1) * rb then
        .error (0x323#10, 0)
      else
        match h.bound w[2] with
        | none => .error (0x320#10, 0)
        | some sb =>
          let src ← s.foot c asid cls .load (h.runs w[2]) sb
          let runs := relayoutRuns w[3].toNat j0 rb n
          let lo := runs.foldl (fun a r => Nat.min a r.1) (w[3].toNat + 2 ^ 21)
          let hi := runs.foldl (fun a r => Nat.max a (r.1 + r.2)) w[3].toNat
          let dst ← s.foot c asid cls .store runs (lo, hi)
          if dst.pages.all fun p => p.2.cc then .ok (s, ⟨some src, some dst, [f]⟩) else .error (0x323#10, 0)
    | _ => .error (0x323#10, 0)

/-- KIND of a record (R192). -/
def recordKind (w : Vector Word 8) : Nat := bits w[0] 7 0

/-- Checks a launch packet's record: its address and its layout (R305, R314). Of a load-reference or unload record
only DESC and GEN are read (R192). -/
def State.planLaunch (s : State) (c die : Nat) (asid : BitVec 16) (cls : BitVec 2) (w : Vector Word 8) :
    Except (BitVec 10 × Word) (State × Carriage) := do
  let (s, l) ← s.unitWords c asid cls w[2] 8
  let kind := recordKind (vec8 l)
  if kind = 1 ∨ kind = 2 ∨ launchFormed die (vec8 l) then .ok (s, ⟨none, none, []⟩) else .error (0x321#10, 0)

/-- Checks a packet under R300 to R307. -/
def State.plan (s : State) (c die : Nat) (asid : BitVec 16) (cls : BitVec 2) (w : Vector Word 8) :
    Except (BitVec 10 × Word) (State × Carriage) :=
  if !packetFormed w then .error (0x321#10, 0)
  else
    match ladOpc w with
    | 0x10 => s.planCopy c asid cls w
    | 0x11 => s.planFill c asid cls w
    | 0x12 => s.planRelayout c asid cls w
    | 0x13 => .ok (s, ⟨none, none, []⟩)
    | _ => s.planLaunch c die asid cls w

/-! ### Moving bytes (R305, R308, R366, R399) -/

/-- The cause that an access to a piece ends with at its owner, if any. -/
def State.pieceCause (s : State) (p : Piece) : Option (BitVec 10) :=
  if p.x.tt = 0 ∧ s.retiredIn p.key then some 0x382#10
  else if p.x.tt = 0 ∧ s.unreachable p.key then some 0x3C1#10
  else none

/-- The bytes of a footprint up to the first access that fails: each byte with its poison, and the cause
and address of the failure. -/
def State.gather (s : State) : List Piece → State × List (Byte × Bool) × Option (BitVec 10 × Word)
  | [] => (s, [], none)
  | p :: ps =>
    match s.pieceCause p with
    | some e => (s, [], some (e, BitVec.ofNat 64 p.va))
    | none =>
      let s := (s.open p.key p.n).resolve p.key p.n
      let here : State × List (Byte × Bool) :=
        match if p.x.tol then s.readMem p.key p.n true p.x.nan else .error 0 with
        | .ok (s, b) => (s, b.map fun v => (v, false))
        | .error _ => (s, (List.range p.n).map fun i => (Memory.read s.mem (p.key + i), s.poisoned (p.key + i) 1))
      let rest := State.gather here.1 ps
      (rest.1, here.2 ++ rest.2.1, rest.2.2)

/-- The pieces before the first access that fails, and that failure. -/
def State.reachable (s : State) : List Piece → List Piece × Option (BitVec 10 × Word)
  | [] => ([], none)
  | p :: ps =>
    match s.pieceCause p with
    | some e => ([], some (e, BitVec.ofNat 64 p.va))
    | none => let r := State.reachable s ps; (p :: r.1, r.2)

/-- Writes bytes to a footprint in iteration order, as many as there are (R305, R308): every word that
receives a poisoned byte is marked. -/
def State.scatter (s : State) (ps : List Piece) (data : List (Byte × Bool)) : State :=
  let keys := ps.flatMap fun p => (List.range p.n).map (p.key + ·)
  let s := ps.foldl (fun s p => (s.open p.key p.n).eccClear p.key p.n) s
  s.engineWrite ((keys.zip data).map fun e => (e.1, e.2.1, e.2.2))

/-- What a packet comes to in a step: state, cause, address, whether poison was carried, a2, flags, and what it has
still to move. -/
structure Moved where
  s      : State
  cause  : BitVec 10
  addr   : Word
  poison : Bool
  extra  : Word
  flags  : BitVec 7
  work   : Option Work

/-- Moves bytes from source pieces to destination pieces: what precedes the first failing access is written (R366). -/
def State.moveBytes (s : State) (src dst : List Piece) : Moved :=
  let g := s.gather src
  let d := g.1.reachable dst
  let room := (d.1.map Piece.n).sum
  let data := g.2.1.take room
  let fail := if g.2.1.length ≤ room then g.2.2.orElse fun _ => d.2 else d.2
  let e := fail.getD (0, 0)
  ⟨g.1.scatter d.1 data, e.1, e.2, data.any (·.2), 0, 0, none⟩

/-- Fills destination pieces: the byte at address x receives byte x mod 8 of the pattern. -/
def State.fillBytes (s : State) (pattern : Word) (dst : List Piece) : Moved :=
  let d := s.reachable dst
  let data := d.1.flatMap fun p => (List.range p.n).map fun i =>
    (BitVec.ofNat 8 (pattern.toNat / 256 ^ ((p.va + i) % 8)), false)
  let e := d.2.getD (0, 0)
  ⟨s.scatter d.1 data, e.1, e.2, false, 0, 0, none⟩

/-! ### The parts of a packet (R298, R306, R362) -/

/-- The first `n` bytes of some pieces, and the rest. -/
def splitPieces (n : Nat) : List Piece → List Piece × List Piece
  | [] => ([], [])
  | p :: ps =>
    if p.n ≤ n then let r := splitPieces (n - p.n) ps; (p :: r.1, r.2)
    else ((if n = 0 then [] else [{ p with n := n }]), { p with va := p.va + n, key := p.key + n, n := p.n - n } :: ps)

/-- Bytes of some pieces. -/
def bytesIn (ps : List Piece) : Nat := (ps.map Piece.n).sum

/-- How many bytes of some pieces come before the first that is held or whose path is down (R362, R399). -/
def State.freeBytes (s : State) : List Piece → Nat
  | [] => 0
  | p :: ps =>
    match s.waitsAt p.key p.n with
    | none => p.n + State.freeBytes s ps
    | some w => w - p.key

/-- A piece whose translation was removed is walked again (R231). -/
def State.renew (s : State) (w : Work) (kind : AccKind) (cc : Bool) (p : Piece) : Except (BitVec 10) Piece :=
  if !p.stale then .ok p
  else
    match s.translate w.core w.asid w.cls kind (BitVec.ofNat 64 p.va) with
    | .error e => .error e
    | .ok x =>
      if 1 < x.tt then .error 0x106#10
      else if cc ∧ !x.cc then .error 0x323#10
      else .ok { p with x := x, key := x.key, stale := false }

/-- The pieces before the first whose walk fails, and that failure (R306). -/
def State.renewAll (s : State) (w : Work) (kind : AccKind) (cc : Bool) :
    List Piece → List Piece × Option (BitVec 10 × Word)
  | [] => ([], none)
  | p :: ps =>
    match s.renew w kind cc p with
    | .error e => ([], some (e, BitVec.ofNat 64 p.va))
    | .ok q => let r := State.renewAll s w kind cc ps; (q :: r.1, r.2)

/-- The tables of the pieces that are walked again are read as memory answers (R134, R358). -/
def State.openStale (s : State) (w : Work) (ps : List Piece) : State :=
  (ps.filter Piece.stale).foldl (fun s p => s.resolveTables w.core w.asid p.va) s

/-- What remains of a packet's work after `n` bytes. -/
def Work.after (w : Work) (n : Nat) : Option Work :=
  if bytesIn w.dst ≤ n then none
  else some { w with src := (splitPieces n w.src).2, dst := (splitPieces n w.dst).2 }

/-- One part of a packet: up to `n` bytes in iteration order, of those before the first access that is held, and before
the first whose renewed walk fails, where the packet ends (R305, R306, R362). Nothing where the first byte is held. -/
def State.movePart (s : State) (w : Work) (opc : Nat) (pattern : Word) (n : Nat) : Option Moved :=
  let fill := decide (opc = 0x11)
  let front := (splitPieces n w.src).1
  let back := (splitPieces n w.dst).1
  let t := s.openStale w (front ++ back)
  let src := s.renewAll w .load false front
  let dst := s.renewAll w .store (decide (opc = 0x12)) back
  let room := if fill then bytesIn dst.1 else Nat.min (bytesIn src.1) (bytesIn dst.1)
  let free := if fill then s.freeBytes dst.1 else Nat.min (s.freeBytes src.1) (s.freeBytes dst.1)
  let m := Nat.min room free
  let fail := if bytesIn src.1 ≤ bytesIn dst.1 ∧ !fill then src.2.orElse fun _ => dst.2 else dst.2
  if m < room ∧ m = 0 then none
  else
    let ps := (splitPieces m dst.1).1
    let r := if fill then t.fillBytes pattern ps else t.moveBytes (splitPieces m src.1).1 ps
    if r.cause ≠ 0 then some r
    else if m < room then some { r with work := w.after m }
    else match fail with
      | some e => let u := r.s.sawPoison w.core w.asid e.1 e.2; some { r with s := u, cause := e.1, addr := e.2 }
      | none => some { r with work := w.after m }

/-- What a packet that runs does in a step: a part, of free length (R298, log 10). -/
def State.continuePacket (s : State) (cl ch : Nat) (p : Packet) (w : Work) : State :=
  match s.movePart w (ladOpc p.started.cmd.w) p.started.cmd.w[2] (Config.movedBytes s.tick + 1) with
  | none => s
  | some m =>
    m.s.modCluster cl fun cu =>
      { cu with chans := cu.chans.set (ix 4 ch) ({ cu.chans[ix 4 ch] with
        cur := some ⟨{ p.started with cause := m.cause, addr := m.addr, poison := p.started.poison || m.poison },
          p.queue, m.work⟩ }) }

/-- The status of a launch record in a packet (R195): DENIED for class 1, and NOOBJ where the packet's queue has
processed its unload of the object (R86). -/
def State.packetStatus (s : State) (c die : Nat) (asid : BitVec 16) (cls : BitVec 2) (colour : BitVec 6)
    (queue : Option Nat) (r : Vector Word 8) : Except Word Nat :=
  if cls = 1 then .error stDENIED
  else
    match s.launchStatus die c r 0 asid (if cls = 0 then some colour else none) with
    | .ok act => if queue.any fun q => s.unloadedBy q r[2] r[3] then .error stNOOBJ else .ok act
    | .error e => .error (if e = stNOFIT ∧ queue.any fun q => s.unloadedBy q r[2] r[3] then stNOOBJ else e)

/-- What a packet comes to that its scheduler has refused or accepted (R305, R313). -/
def State.replied (s : State) : Except Word Nat → Moved
  | .error e => ⟨s, 0x324#10, 0, false, e, if e = stDENIED then flNV else 0, none⟩
  | .ok id => ⟨s, 0, 0, false, BitVec.ofNat 64 id, 0, none⟩

/-- Submits the launch record of a packet to a die's scheduler (R195, R305, R313). The load-reference and unload
records of a copy queue act on that queue's reference (R86); one of LPOST is refused with BADREC. -/
def State.submit (s : State) (c die : Nat) (asid : BitVec 16) (cls : BitVec 2) (launcher : Launcher)
    (queue : Option Nat) (w : Vector Word 8) : Moved :=
  let fail (e : BitVec 10 × Word) : Moved := ⟨s.sawPoison c asid e.1 e.2, e.1, e.2, false, 0, 0, none⟩
  match s.unitWords c asid cls w[2] 8 with
  | .error e => fail e
  | .ok (s, l) =>
    let r := vec8 l
    match queue.filter fun _ => recordKind r = 1 || recordKind r = 2 with
    | some q => let x := s.refer q asid (recordKind r) r[2] r[3]; x.1.replied x.2
    | none =>
      match s.unitWords c asid cls (blockAddr r) (blockWords r) with
      | .error e => fail e
      | .ok (s, b) =>
        let s := s.openObject r[2]
        match s.packetStatus c die asid cls (ladColour w) queue r with
        | .error e => s.replied (.error e)
        | .ok act =>
          let id := (s.die die).freshId
          let join := match launcher with
            | .slot core _ _ _ => if wantsJoin r then some core else none
            | _ => none
          let s := match join with
            | some core => s.modCore core fun co => { co with joins := co.joins + 1 }
            | none => s
          (s.queueLaunch die r (blockMsgs r b) (blockWindows r b) launcher asid act (ladColour w)).replied (.ok id)

/-- The tables of a plan's pages are read as memory answers (R134, R358). -/
def State.openPages (s : State) (c : Nat) (asid : BitVec 16) (p : Carriage) : State :=
  (p.recs ++ p.src.toList ++ p.dst.toList).foldl (fun s f =>
    f.pages.foldl (fun s e => s.resolveTables c asid (e.1 * 0x10000)) s) s

/-- The start of a packet (R305 to R308): it is checked again (R306, R315), every page of both footprints is
translated, and what it is to move is laid out. A launch packet submits its record at once. -/
def State.openPacket (s : State) (c die : Nat) (asid : BitVec 16) (cls : BitVec 2) (launcher : Launcher)
    (queue : Option Nat) (w : Vector Word 8) : Moved :=
  match s.plan c die asid cls w with
  | .error e => ⟨s.sawPoison c asid e.1 e.2, e.1, e.2, false, 0, 0, none⟩
  | .ok (s, p) =>
    let s := s.openPages c asid p
    if ladOpc w = 0x14 then s.submit c die asid cls launcher queue w
    else ⟨s, 0, 0, false, 0, 0, p.dst.map fun d => ⟨c, asid, cls, p.src.elim [] Foot.pieces, d.pieces⟩⟩

/-! ### LPOST (R314) -/

/-- The guard entries of a plan: core, space, start, bytes, and whether it is write-locked. -/
def Carriage.guards (p : Carriage) (c : Nat) (asid : BitVec 16) : List (Nat × GuardSpace × Nat × Nat × Bool) :=
  let of (f : Foot) (w : Bool) := (f.guards c asid).map fun g => (g.1, g.2.1, g.2.2.1, g.2.2.2, w)
  p.recs.flatMap (fun f => of f false) ++ p.src.elim [] (fun f => of f false) ++ p.dst.elim [] fun f => of f true

/-- How many entries each core's table must have free. -/
def guardNeeds (gs : List (Nat × GuardSpace × Nat × Nat × Bool)) : List (Nat × Nat) :=
  ((gs.map (·.1)).eraseDups).map fun c => (c, (gs.filter fun g => g.1 = c).length)

/-- The waits of an LPOST (R91, R159, R180, R298). -/
def State.ladleWait (s : State) (k ch : Nat) (w : Vector Word 8) (needs : List (Nat × Nat)) : Option Wait :=
  let cl := clusterOf (keyCore k)
  let r := ladReplyTo w
  if r.rkind = 0 ∧ (s.slot k).beads[2] = 63 then some (.beadRoom 2)
  else if needs.any fun n => !s.guardRoom n.1 n.2 then some (.guards needs)
  else if r.rkind = 2 ∧ !s.poolFree r.core 1 then some (.pool r.core)
  else if 16 ≤ ((s.cluster cl).chans[ix 4 ch]).inbox.length then some (.ladleRoom cl ch)
  else none

def State.modChan (s : State) (cl ch : Nat) (f : Channel → Channel) : State :=
  s.modCluster cl fun cu => { cu with chans := cu.chans.set (ix 4 ch) (f cu.chans[ix 4 ch]) }

def State.chan (s : State) (cl ch : Nat) : Channel := (s.cluster cl).chans[ix 4 ch]

/-- Posts a packet to a channel's inbox: the release, the bead, the pool entry, the guards. -/
def State.ladlePost (s : State) (k ch : Nat) (w : Vector Word 8) (gs : List (Nat × GuardSpace × Nat × Nat × Bool)) : State :=
  let r := ladReplyTo w
  let s := s.release k
  let cmd := s.newCmd k w true (if r.rkind = 2 then some r.core else none) []
  let s := if r.rkind = 0 then s.modSlot k fun sl => sl.beadUp 2 else s
  let s := if r.rkind = 2 then s.claim r.core else s
  let s := gs.foldl (fun s g => s.enterGuard g.1 ⟨0, g.2.1, g.2.2.1, g.2.2.2.1, g.2.2.2.2, some cmd.id, keyCore k,
    (s.slot k).ctxid⟩) s
  s.bump.modChan (clusterOf (keyCore k)) ch fun x => { x with inbox := x.inbox ++ [cmd] }

/-- What LPOST overwrites: SLOT, COLOUR, CTXID, ASID and PRIV, and for F 0 the reply kind and bead. -/
def Slot.ownPacket (sl : Slot) (k : Nat) (cp : Bool) (w : Vector Word 8) : Vector Word 8 :=
  let w0 := setField (setField w[0] 20 18 (keySlot k).val) 13 8 sl.jobcol.toNat
  let w0 := if cp then setField w0 17 14 (2 * 4) else w0
  #v[w0, sl.ctxid.setWidth 64, w[2], w[3], w[4], w[5], w[6],
    setField (setField w[7] 55 40 sl.asid.toNat) 56 56 (decide (2 ≤ sl.cls.toNat)).toNat]

/-- LPOST (R314): 3 cycles. -/
def State.lpost (s : State) (cp : Bool) (td : HandleNo) (ctl : BitVec 2) (g : PredNo) : Host.Outcome State Fault Refusal :=
  s.run { feats := [48], engine := true } 4 3 g fun k =>
    let sl := s.slot k
    let c := keyCore k
    match s.readCommand k (sl.handle td) with
    | .error (e, va) => .trap e va
    | .ok (s, w) =>
      let w := sl.ownPacket k cp w
      if !cp ∧ ladRkind w ≠ 1 ∧ ladRkind w ≠ 2 then .trap 0x003#10 0
      else
        match (s.release k).plan c (dieOf c) sl.asid sl.cls w with
        | .error (e, va) => .trap e va
        | .ok (s, p) =>
          let s := s.openPages c sl.asid p
          let gs := p.guards c sl.asid
          match s.ladleWait k ctl.toNat w (guardNeeds gs) with
          | some wt => .wait s wt
          | none => .next (s.ladlePost k ctl.toNat w gs)

/-- LPOST_CP (R314). -/
def execLpostCp (td : HandleNo) (ctl : BitVec 2) (g : PredNo) (s : State) :
    Host.Outcome State Fault Refusal := s.lpost true td ctl g

/-- LPOST_PKT (R314). -/
def execLpostPkt (td : HandleNo) (ctl : BitVec 2) (g : PredNo) (s : State) :
    Host.Outcome State Fault Refusal := s.lpost false td ctl g

/-! ### LSHAPE (R316) -/

/-- The dimensions that the enabled coefficients of a stream add: COUNT and STRIDE. -/
def Slot.streamDims (sl : Slot) (g : Nat) : List (BitVec 32 × Word) :=
  (List.range 4).filterMap fun i =>
    let j := 4 * g + i
    if bit sl.lcmap (4 * j + 3) then some (sl.lb[ix 4 (bits sl.lcmap (4 * j + 1) (4 * j))], (sl.c[ix 16 j]).signExtend 64)
    else none

/-- The shape record of a base, a run length and dimensions, as eight words. -/
def shapeWords (base : Word) (len0 : Nat) (dims : List (BitVec 32 × Word)) : List Word :=
  let d (i : Nat) := dims.getD i (0, 0)
  [base, fields [(len0, 0), (dims.length + 1, 32)], (d 1).1 ++ (d 0).1, (d 3).1 ++ (d 2).1,
    (d 0).2, (d 1).2, (d 2).2, (d 3).2]

/-- LSHAPE (R316): 3 cycles. -/
def State.lshape (s : State) (scale : Bool) (td ta : HandleNo) (ctl : BitVec 2) (g : PredNo) :
    Host.Outcome State Fault Refusal :=
  s.run { feats := [48, 2], engine := true } 4 3 g fun k =>
    let sl := s.slot k
    let c := keyCore k
    let d := sl.handle td
    let a := sl.handle ta
    let dims := (if scale then [] else [(BitVec.ofNat 32 a.rows, BitVec.ofNat 64 a.rstride)]) ++ sl.streamDims ctl.toNat
    let len0 := if scale then a.scaleBytes else (a.cols * elemBits a.fmt + 7) / 8
    let base := if scale then a.scaleBase else a.base
    match s.missing [a] with
    | some n => .undef n
    | none =>
      if !d.val then .trap 0x003#10 0
      else
        match s.translate c sl.asid sl.cls .store d.base with
        | .error e => .trap e d.base
        | .ok x =>
          if x.tt ≠ 1 ∨ !ownWindow k x then .trap 0x106#10 d.base
          else if d.base.toNat % 64 ≠ 0 then .trap 0x104#10 d.base
          else if !a.ok false ∨ (scale ∧ a.slay = 0) ∨ 4 < dims.length ∨ (dims.any fun e => e.1 = 0) ∨ 2 ^ 24 ≤ len0 then
            .trap 0x003#10 0
          else
            match s.check c sl.asid sl.cls .store .store d.base 64 64 with
            | .error e => .trap e d.base
            | .ok x => .next ((s.fillTlb c x).store x.key ((shapeWords base len0 dims).flatMap fun v => leBytes v.toNat 8))

/-- LSHAPE_ELEM (R316). -/
def execLshapeElem (td ta : HandleNo) (ctl : BitVec 2) (g : PredNo) (s : State) :
    Host.Outcome State Fault Refusal := s.lshape false td ta ctl g

/-- LSHAPE_SCALE (R316). -/
def execLshapeScale (td ta : HandleNo) (ctl : BitVec 2) (g : PredNo) (s : State) :
    Host.Outcome State Fault Refusal := s.lshape true td ta ctl g

/-! ### Copy queues (R309 to R312, R317) -/

def State.queue (s : State) (cl q : Nat) : CopyQueue := (s.cluster cl).queues[ix 64 q]

def State.modQueue (s : State) (cl q : Nat) (f : CopyQueue → CopyQueue) : State :=
  s.modCluster cl fun cu => { cu with queues := cu.queues.set (ix 64 q) (f cu.queues[ix 64 q]) }

/-- The status word of a queue (R312). -/
def CopyQueue.status (b : CopyQueue) (q : Nat) : Word :=
  fields [(b.bound.toNat, 63), (b.anycol.toNat, 62), (b.colour.toNat, 56), (b.chan.toNat, 54), (q, 48),
    (b.fcnt.toNat, 32), (b.cause.toNat, 16), (b.pcnt.toNat, 0)]

/-- Whether a bind record keeps its layout (R317). -/
def bindFormed (r : List Word) : Bool :=
  let w2 := r.getD 2 0
  decide ((r.getD 0 0).toNat % 32 = 0) && decide ((r.getD 1 0).toNat % 64 = 0) && decide (bits w2 7 2 = 0) &&
  decide (bits w2 14 14 = 0) && decide (bits w2 63 16 = 0) && decide (r.getD 3 0 = 0)

/-- The queue that a bind record asks for. -/
def bindQueue (r : List Word) (cap rdidx : Word) (core : Nat) (cls : BitVec 2) (asid : BitVec 16) : CopyQueue where
  bound := true
  core := core
  cls := cls
  cb := r.getD 0 0
  ring := r.getD 1 0
  cap := cap.toNat
  chan := (r.getD 2 0).extractLsb' 0 2
  colour := (r.getD 2 0).extractLsb' 8 6
  anycol := bit (r.getD 2 0) 15
  asid := asid
  rdidx := rdidx
  fcnt := 0
  cause := 0
  pcnt := 0
  ready := false

/-- LQCTL_BIND (R317). -/
def execLqctlBind (d : Dst) (a : Src) (s : State) : Host.Outcome State Fault Refusal :=
  s.run { feats := [48] } 4 2 0 fun k =>
    let sl := s.slot k
    let c := keyCore k
    let cl := clusterOf c
    let ea := sl.read a
    if ea.toNat % 32 ≠ 0 then .trap 0x104#10 ea
    else
      match (s.release k).ordinaryWords c sl.asid sl.cls ea 4 with
      | .error (e, va) => .trap e va
      | .ok (s, r) =>
        if !bindFormed r then s.gives k d stBADREC
        else
          match s.ordinaryWords c sl.asid sl.cls (r.getD 0 0) 3 with
          | .error (e, va) => .trap e va
          | .ok (s, cb) =>
            let cap := cb.getD 2 0
            let rd := cb.getD 1 0
            if cap = 0 ∨ 65536 < cap.toNat then s.gives k d stBADREC
            else
              match s.ordinaryWords c sl.asid sl.cls (r.getD 1 0 + BitVec.ofNat 64 (64 * (rd.toNat % cap.toNat))) 1 with
              | .error (e, va) => .trap e va
              | .ok (s, _) =>
                let b := bindQueue r cap rd c sl.cls sl.asid
                if sl.cls.toNat < 2 ∧ (b.anycol ∨ b.colour ≠ sl.jobcol) then s.gives k d stDENIED
                else
                  match (List.range 64).find? fun q => !(s.queue cl q).bound with
                  | none => s.gives k d stNORES
                  | some q => ((s.modQueue cl q fun _ => b).pollQueue cl q).gives k d (BitVec.ofNat 64 q)

/-- LQCTL on a bound queue: NOOBJ, DENIED, or what the function does (R317). -/
def State.lqctl (s : State) (d : Dst) (a : Src) (f : Nat → Nat → Nat → Act) : Host.Outcome State Fault Refusal :=
  s.run { feats := [48] } 4 2 0 fun k =>
    let sl := s.slot k
    let cl := clusterOf (keyCore k)
    let q := bits (sl.read a) 5 0
    let b := s.queue cl q
    if !b.bound then s.gives k d stNOOBJ
    else if sl.cls.toNat < 2 ∧ b.asid ≠ sl.asid then s.gives k d stDENIED
    else f k cl q

/-- LQCTL_RING (R317). -/
def execLqctlRing (d : Dst) (a : Src) (s : State) : Host.Outcome State Fault Refusal :=
  s.lqctl d a fun k cl q => (s.pollQueue cl q).gives k d 0

/-- LQCTL_STAT (R317). -/
def execLqctlStat (d : Dst) (a : Src) (s : State) : Host.Outcome State Fault Refusal :=
  s.lqctl d a fun k cl q => s.gives k d ((s.queue cl q).status q)

/-- LQCTL_UNBIND (R317). The queue's references and unload marks stay (log 74). -/
def execLqctlUnbind (d : Dst) (a : Src) (s : State) : Host.Outcome State Fault Refusal :=
  s.lqctl d a fun k cl q =>
    let busy := (List.range 4).any fun ch => (s.chan cl ch).cur.any fun p => p.queue = some q
    if busy then s.gives k d stBUSY
    else (s.modQueue cl q fun _ => .reset).gives k d 0

/-- DOORBELL (R317): a store to the doorbell of a bound queue makes the Ladle read its head slot again. -/
def execDoorbell (cluster q : Nat) (s : State) : Host.Outcome State Fault Refusal := s.event (s.pollQueue cluster q)

/-- QUEUE_POLL (R310): the head slot of a bound queue is read again. -/
def execQueuePoll (cluster q : Nat) (s : State) : Host.Outcome State Fault Refusal := s.event (s.pollQueue cluster q)

/-! ### Channels (R298, R299, R311) -/

/-- The words of the head slot of a queue: 64 bytes, or the cause that ends the packet (R308). -/
def State.headWords (s : State) (cl q : Nat) : Vector Word 8 × BitVec 10 :=
  let b := s.queue cl q
  let va := b.ring + BitVec.ofNat 64 (64 * (b.rdidx.toNat % b.cap))
  match s.unitPlace b.core b.asid b.cls .load va with
  | .error e => (#v[0xC000#64, 0, 0, 0, 0, 0, 0, 0], e)
  | .ok key =>
    (vec8 ((List.range 8).map fun i => BitVec.ofNat 64 (s.loadLE (key + 8 * i) 8)),
      if s.retiredAt key then 0x382 else if s.unreachable key then 0x3C1 else if s.poisoned key 64 then 0x118 else 0)

/-- A channel reads the head slot of a queue (R310): a held one makes the step wait, and each word is resolved
(R358, R362). -/
def State.openHead (s : State) (cl q : Nat) : State :=
  let b := s.queue cl q
  let va := b.ring + BitVec.ofNat 64 (64 * (b.rdidx.toNat % b.cap))
  match s.unitPlace b.core b.asid b.cls .load va with
  | .error e => s.sawPoison b.core b.asid e va
  | .ok key => ((s.resolveTables b.core b.asid va.toNat).open key 64).resolve key 64

/-- A packet that a channel can take: from its inbox, or from queue `q` with the cause that its slot gives. -/
structure Candidate where
  cmd   : Cmd
  queue : Option Nat
  cause : BitVec 10
  deriving DecidableEq, Repr

/-- The participant `p` of a channel, if it can supply a packet: 0 the inbox, q + 1 queue q. -/
def State.participant (s : State) (cl ch p : Nat) : Option Candidate :=
  if p = 0 then (s.chan cl ch).inbox.head?.map fun cmd => ⟨cmd, none, 0⟩
  else
    let b := s.queue cl (p - 1)
    if b.bound ∧ b.chan.toNat = ch ∧ b.ready then
      let h := s.headWords cl (p - 1)
      some ⟨⟨s.nextId, h.1, none, false, 0, true, none, []⟩, some (p - 1), h.2⟩
    else none

/-- Whether the launch record that a packet names asks for a JOIN (R192, R197). -/
def State.recordJoins (s : State) (c : Nat) (w : Vector Word 8) : Bool :=
  match s.unitPlace c (w[7].extractLsb' 40 16) (if bit w[7] 56 then 2 else 0) .load w[2] with
  | .error _ => false
  | .ok key =>
    let r : Word := BitVec.ofNat 64 (s.loadLE key 8)
    decide (bits r 7 0 = 0) && bit r 8 && !bit r 9

/-- Whether a packet may start: its colour is not being pre-empted, and what it claims is free (R180, R195,
R299): a launch the scheduler's record, and the entry of its JOIN where it asks for one. -/
def State.mayStart (s : State) (cl : Nat) (x : Candidate) : Bool :=
  let r := ladReplyTo x.cmd.w
  !(s.colour (ladColour x.cmd.w)).preempting &&
  (decide (r.rkind ≠ 2) || x.cmd.claimed.isSome || s.poolFree r.core 1) &&
  (decide (ladOpc x.cmd.w ≠ 0x14) || (decide ((s.die (cl / 4)).queued < 64) &&
    x.cmd.issuer.all fun i => !s.recordJoins i.core x.cmd.w || s.poolFree i.core 1))

/-- The next packet of a free channel: round-robin from the participant served last (R298). -/
def State.nextPacket (s : State) (cl ch : Nat) : Option Candidate :=
  let x := s.chan cl ch
  if x.cur.isSome then none
  else ((List.range 65).map fun i => (x.turn + 1 + i) % 65).findSome? fun p =>
    (s.participant cl ch p).filter fun y => s.mayStart cl y

/-- Whether a queue packet keeps the rules of its queue (R311). -/
def CopyQueue.takes (b : CopyQueue) (w : Vector Word 8) : Bool :=
  (b.anycol || decide (b.colour = ladColour w)) && decide (ladRkind w ≠ 0)

/-- Who launches by a packet: the issuing slot, or nobody. -/
def State.packetLauncher (s : State) (x : Candidate) : Launcher :=
  match x.cmd.issuer with
  | some i =>
    if s.present i.core i.ctxid then
      .slot i.core (ix 8 (ladReplyTo x.cmd.w).slot) i.ctxid (BitVec.ofNat 2 (s.classOf i.core i.ctxid))
    else .packet
  | none => .packet

/-- The number of a copy queue among the queues of the module; the launch queues have the numbers below 64 (R86). -/
def copyQueueNo (cl q : Nat) : Nat := 64 + cl * 64 + q

/-- The start of a packet that a channel takes. -/
def State.takePacket (s : State) (cl : Nat) (x : Candidate) : Moved :=
  let w := x.cmd.w
  match x.queue with
  | some q =>
    let b := s.queue cl q
    if x.cause ≠ 0 then ⟨s, x.cause, 0, false, 0, 0, none⟩
    else if !b.takes w then ⟨s, 0x321#10, 0, false, 0, 0, none⟩
    else s.openPacket b.core (cl / 4) b.asid b.cls .packet (some (copyQueueNo cl q)) w
  | none =>
    s.openPacket ((x.cmd.issuer.map (·.core)).getD 0) (cl / 4) (w[7].extractLsb' 40 16) (if bit w[7] 56 then 2 else 0)
      (s.packetLauncher x) none w

/-- A channel takes its next packet, where that packet's OPC is one of these (R298). -/
def State.ladleStart (s : State) (cl ch : Nat) (opc : Nat → Bool) : State :=
  match s.nextPacket cl ch with
  | none => s
  | some x =>
    if !opc (ladOpc x.cmd.w) then s
    else
      let r := ladReplyTo x.cmd.w
      let pays := decide (r.rkind = 2) && x.cmd.claimed.isNone
      let s := if pays then s.claim r.core else s
      let cmd := { x.cmd with claimed := if pays then some r.core else x.cmd.claimed }
      let s := x.queue.elim s fun q => s.openHead cl q
      let x := { x with cause := x.queue.elim x.cause fun q => (s.headWords cl q).2 }
      let m := s.bump.takePacket cl x
      m.s.modChan cl ch fun y =>
        { inbox := if x.queue.isNone then y.inbox.tail else y.inbox
          cur := some ⟨⟨cmd, m.cause, m.flags, m.poison, m.extra, m.addr⟩, x.queue, m.work⟩
          turn := x.queue.elim 0 (· + 1) }

/-- What a channel does with packets of some OPCs: the one that runs moves its next part, and a free channel takes its
next one (R298). -/
def State.ladleStep (s : State) (cl ch : Nat) (opc : Nat → Bool) : State :=
  match (s.chan cl ch).cur with
  | none => s.ladleStart cl ch opc
  | some p =>
    match p.work with
    | some w => if opc (ladOpc p.started.cmd.w) then s.continuePacket cl ch p w else s
    | none => s

/-- LADLE_COPY (R305); a reserved OPC ends here too, with 0x321. -/
def execLadleCopy (cluster chan : Nat) (s : State) : Host.Outcome State Fault Refusal :=
  s.event (s.ladleStep cluster chan fun o => o = 0x10 || o < 0x10 || 0x14 < o)

/-- LADLE_FILL (R305). -/
def execLadleFill (cluster chan : Nat) (s : State) : Host.Outcome State Fault Refusal :=
  s.event (s.ladleStep cluster chan (· = 0x11))

/-- LADLE_RELAYOUT (R307). -/
def execLadleRelayout (cluster chan : Nat) (s : State) : Host.Outcome State Fault Refusal :=
  s.event (s.ladleStep cluster chan (· = 0x12))

/-- LADLE_NOP (R305). -/
def execLadleNop (cluster chan : Nat) (s : State) : Host.Outcome State Fault Refusal :=
  s.event (s.ladleStep cluster chan (· = 0x13))

/-- LADLE_LAUNCH (R305). -/
def execLadleLaunch (cluster chan : Nat) (s : State) : Host.Outcome State Fault Refusal :=
  s.event (s.ladleStep cluster chan (· = 0x14))

/-! ### Replies (R311, R313) -/

/-- Word a1 of a reply message. -/
def Started.a1 (st : Started) : Word := fields [(st.cause.toNat, 0), (st.poison.toNat, 10)]

/-- The reply of a queue packet: a flag word, a message, or nothing. The sender of the message is open
(log 19). No context is credited with the NV of a launch refused as DENIED: a queue packet has no issuing context and
names no core of its CTXID (log 75). -/
def State.queueReply (s : State) (st : Started) : State :=
  let r := ladReplyTo st.cmd.w
  let src := Config.noticeSender s.tick
  match r.rkind with
  | 1 => s.storeLE (s.winKey r.core (r.off / 8 * 8)) 8 (flagWord r.value st.cause).toNat
  | 2 => s.send sDieNo (s.header 2 (bits src 11 0) (bits src 14 12) (bits src 16 15) r.colour false true r.mb r.type) 0 0
      #v[r.value, st.a1, st.extra, 0, 0, 0] r.core 0 .nothing true
  | _ => s

/-- The update of a queue after the reply of its packet (R311): the status word, then RDIDX. -/
def State.queueDone (s : State) (cl q : Nat) (st : Started) : State :=
  let s := s.modQueue cl q fun b =>
    { b with
      fcnt := if st.cause = 0 then b.fcnt else sat 16 b.fcnt
      cause := if st.cause = 0 then b.cause else st.cause
      pcnt := if st.poison then sat 16 b.pcnt else b.pcnt
      rdidx := b.rdidx + 1
      ready := false }
  let b := s.queue cl q
  match s.unitPlace b.core b.asid b.cls .store b.cb with
  | .error _ => s
  | .ok key =>
    let s := (s.open key 32).storeOp (key + 24) 8 (b.status q).toNat
    s.storeOp (key + 8) 8 ((s.loadLE (key + 8) 8 + 1) % 2 ^ 64)

/-- LANE re-executes a faulted packet of an inbox in its channel (R214): the next one starts after its reply
(R298, R318). -/
def State.packetAgain (s : State) (cl ch : Nat) (cmd : Cmd) : State :=
  let m := s.takePacket cl ⟨cmd, none, 0⟩
  m.s.modChan cl ch fun x => { x with cur := some ⟨⟨cmd, m.cause, m.flags, m.poison, m.extra, m.addr⟩, none, m.work⟩ }

/-- LADLE_REPLY (R313): once nothing of the packet is left to move. -/
def execLadleReply (cluster chan : Nat) (s : State) : Host.Outcome State Fault Refusal :=
  s.event (match (s.chan cluster chan).cur.filter fun p => p.work.isNone with
    | none => s
    | some p =>
      let st := p.started
      let ended := s.modChan cluster chan fun x => { x with cur := none }
      match p.queue, st.cmd.issuer with
      | some q, _ => (ended.queueReply st).queueDone cluster q st
      | none, none => ended
      | none, some i =>
        let r := ladReplyTo st.cmd.w
        match s.lanesAgain st r.slot 3 with
        | some (i, f) =>
          (s.commandRetry i f st.cmd.tries).packetAgain cluster chan { st.cmd with tries := st.cmd.tries + 1 }
        | none => ended.endCommand i.core st r 3 st.a1 st.extra)

end Sys2Proof.Machine
end

