-- ==== Sys2Proof/Machine/Runner.lean ====
section
/-! DEFINITION. The Runner (R324 to R347): commands, communicators, plans, plays, ops, buddies, aborts. -/

namespace Sys2Proof.Machine

/-! ### Commands (R326, R327) -/

def runOpc (w : Vector Word 8) : Nat := bits w[0] 7 0
def runF (w : Vector Word 8) : Nat := bits w[0] 10 8
def runComm (w : Vector Word 8) : Nat := bits w[0] 12 11
def runRkind (w : Vector Word 8) : Nat := bits w[0] 15 14
def runColour (w : Vector Word 8) : Nat := bits w[0] 24 19
def runPriv (w : Vector Word 8) : Bool := bit w[0] 25
def runAsid (w : Vector Word 8) : BitVec 16 := w[0].extractLsb' 26 16
def runClass (w : Vector Word 8) : BitVec 2 := if runPriv w then 2 else 0
def runAddr0 (w : Vector Word 8) : Word := BitVec.ofNat 64 (bits w[2] 51 0)
def runAddr1 (w : Vector Word 8) : Word := BitVec.ofNat 64 (bits w[3] 51 0)

/-- Whether a command goes to the control inbox: kcomm.bind and kcomm.free (R326, R346). -/
def runControl (w : Vector Word 8) : Bool := decide (runOpc w = 0x57)

/-- The reply of a command beside its word: bead CP, or nothing more (R327). -/
def runReplyTo (w : Vector Word 8) : ReplyTo where
  rkind := if runRkind w = 0 then 0 else 3
  bead := 2
  slot := bits w[0] 18 16
  colour := runColour w
  value := 0
  core := 0
  off := 0
  mb := 0
  type := 0
  ctxid := w[1].setWidth 32

/-- The core whose ASTAB translates a command's own addresses (log 22). -/
def Cmd.core (cmd : Cmd) (die : Nat) : Nat := (cmd.issuer.map Issuer.core).getD (die * 1024)

def State.comm (s : State) (die c : Nat) : Comm := (s.die die).comms[ix 4 c]

def State.modComm (s : State) (die c : Nat) (f : Comm → Comm) : State :=
  s.modDie die fun d => { d with comms := d.comms.set (ix 4 c) (f d.comms[ix 4 c]) }

/-- Writes a result or status word (R327); one that cannot be written is skipped. -/
def State.runWrite (s : State) (c : Nat) (asid : BitVec 16) (cls : BitVec 2) (va v : Word) : State :=
  match s.translate c asid cls .store va with
  | .error _ => s
  | .ok x =>
    if 1 < x.tt ∨ (x.tt = 0 ∧ (s.retiredAt x.key ∨ s.unreachable x.key)) then s
    else ((s.resolveTables c asid va.toNat).open x.key 8).storeOp x.key 8 v.toNat

/-- The word of a faulting KCOMM or KPLAN (R327). -/
def faultWord (cause : BitVec 10) : Word := fields [(3, 62), (cause.toNat, 0)]

/-- The end of a command (R212, R327): its word, then its reply and its fault. -/
def State.runEnd (s : State) (die : Nat) (cmd : Cmd) (word : Word) (cause : BitVec 10) (addr : Word) : State :=
  let s := s.runWrite (cmd.core die) (runAsid cmd.w) (runClass cmd.w) (runAddr0 cmd.w) word
  match cmd.issuer with
  | none => s
  | some i => s.endCommand i.core ⟨cmd, cause, 0, false, 0, addr⟩ (runReplyTo cmd.w) 4 0 0

/-- Whether LANE re-executes a faulted command (R214); an abort by KABRT is never re-executed. -/
def State.runAgain (s : State) (cmd : Cmd) (cause : BitVec 10) (addr : Word) : Option (Issuer × FaultInfo) :=
  if cause = 0x330#10 then none
  else s.lanesAgain ⟨cmd, cause, 0, false, 0, addr⟩ (runReplyTo cmd.w).slot 4

/-- Removes the head of an inbox: a communicator's, or 4 for the control inbox. -/
def State.dropHead (s : State) (die inbox : Nat) : State :=
  if inbox = 4 then s.modDie die fun d => { d with control := d.control.tail }
  else s.modComm die inbox fun c => { c with inbox := c.inbox.tail }

/-- Puts a command at the head of an inbox. -/
def State.pushHead (s : State) (die inbox : Nat) (cmd : Cmd) : State :=
  if inbox = 4 then s.modDie die fun d => { d with control := cmd :: d.control }
  else s.modComm die inbox fun c => { c with inbox := cmd :: c.inbox }

def State.runInbox (s : State) (die inbox : Nat) : List Cmd :=
  if inbox = 4 then (s.die die).control else (s.comm die inbox).inbox

/-- A KCOMM or KPLAN at the head of an inbox is performed and replies, unless LANE re-executes it. -/
def State.runServe (s : State) (die inbox : Nat) (cmd : Cmd)
    (r : Except (BitVec 10 × Word) (State × Word)) : State :=
  match r with
  | .ok (s, word) => (s.dropHead die inbox).runEnd die cmd word 0 0
  | .error (cause, addr) =>
    let s := s.dropHead die inbox
    match s.runAgain cmd cause addr with
    | some (i, f) => (s.pushHead die inbox { cmd with tries := cmd.tries + 1 }).commandRetry i f cmd.tries
    | none => s.runEnd die cmd (faultWord cause) cause addr

/-! ### Binding (R324, R325, R328) -/

/-- The die key of a die of this module. -/
def State.dieKey (s : State) (die : Nat) : Nat := s.node * 4 + die

/-- A group descriptor (R324). -/
structure Group where
  nrank : Nat
  asid  : BitVec 16
  valid : Bool
  clean : Bool
  ranks : List Nat
  deriving DecidableEq, Repr

/-- The die key that a rank's entry names. -/
def rankKey (e : Nat) : Nat := ((e % 256) * 256 + e / 256 % 256) * 4 + e / 2 ^ 16 % 4

/-- The place of the descriptor of a group. -/
def State.groupKey (s : State) (g : Nat) : Nat := s.own (s.module.gtb.toNat + 4096 * g)

/-- Reads the descriptor of a group. -/
def State.group (s : State) (g : Nat) : Group :=
  let base := s.groupKey g
  let n := s.loadLE base 2
  let entries := (List.range (Nat.min n 1008)).map fun r => s.loadLE (base + 0x40 + 4 * r) 4
  ⟨n, BitVec.ofNat 16 (s.loadLE (base + 2) 2), decide (s.loadLE (base + 4) 1 % 2 = 1),
    decide (s.loadLE (base + 4) 1 / 2 = 0) && decide (s.loadLE (base + 5) 59 = 0) && entries.all fun e => decide (e / 2 ^ 18 = 0),
    entries.map rankKey⟩

/-- Whether the fields of a bind record are in range and its zero fields zero (R328). -/
def bindRecordOk (r : Vector Word 8) : Bool :=
  decide (bits r[0] 63 52 = 0) && decide (bits r[1] 23 18 = 0) && decide (1 ≤ bits r[1] 31 24) && decide (bits r[1] 31 24 ≤ 16) &&
  decide (1 ≤ bits r[1] 47 32) && decide (bits r[1] 47 32 ≤ 1024) && decide (8 ≤ bits r[1] 55 48) && decide (bits r[1] 55 48 ≤ 16) &&
  decide (bits r[1] 63 56 = 0) && decide (bits r[2] 31 0 ≤ 1000000) && decide (bits r[2] 63 32 = 0) &&
  decide (r[3] = 0) && decide (r[4] = 0) && decide (r[5] = 0) && decide (r[6] = 0) && decide (r[7] = 0)

/-- The slots of other ranks that a rank's chunks of an earlier binding still occupy, or its copies those of its buddy:
on their way, held, or with their credit on its way back (R338). -/
def State.occupied (s : State) (c gno rank key : Nat) (kind : ChunkKind) : List (Nat × Nat × Nat) :=
  let held := s.dies.toList.flatMap fun d => d.comms.toList.flatMap fun x =>
    if kind = .data then x.staged else x.copies
  let back := if kind = .data then s.net.credits else []
  (((s.net.chunks.filter fun ch => ch.kind = kind) ++ held ++ back).filter fun ch =>
    decide (ch.src = key) && decide (ch.rank = rank) && decide (ch.group = gno) && decide (ch.comm = c)).map fun ch =>
      (ch.toRank, ch.slot, ch.play)

/-- The communicator of a bind record and its group, keeping the inbox. -/
def boundComm (r : Vector Word 8) (gno : Nat) (g : Group) (core : Nat) (used copies : List (Nat × Nat × Nat)) (old : Comm) :
    Comm :=
  { Comm.reset with
    bound := true
    core := core
    group := gno
    asid := g.asid
    rank := bits r[1] 15 0
    ranks := g.ranks
    prio := r[1].extractLsb' 16 2
    stg := bits r[1] 31 24
    pops := bits r[1] 47 32
    chunk := bits r[1] 55 48
    timeout := bits r[2] 31 0
    credits := used
    buddyUse := copies
    inbox := old.inbox }

/-- kcomm.bind (R328, R346): the state and the result word. -/
def State.kcommBind (s : State) (die : Nat) (cmd : Cmd) : Except (BitVec 10 × Word) (State × Word) := do
  let c := cmd.core die
  let asid := runAsid cmd.w
  let cls := runClass cmd.w
  let (s, l) ← s.unitWords c asid cls (runAddr1 cmd.w) 8
  let r := vec8 l
  if bits r[0] 63 52 ≠ 0 then .ok (s, stBADREC)
  else
    let s := s.resolveTables c asid r[0].toNat
    match s.translate c asid cls .atomic r[0] with
    | .error e => .error (e, r[0])
    | .ok x =>
      if x.tt ≠ 6 then .error (0x106#10, r[0])
      else
        let gno := (x.pa - 0xF800000000) / 2 ^ 21
        let s := (s.open (s.groupKey gno) 4096).resolve (s.groupKey gno) 4096
        let g := s.group gno
        let rank := bits r[1] 15 0
        let used := (s.die die).comms.toList.filter Comm.bound
        let free := (List.range 4).find? fun i => !(s.comm die i).bound
        if !bindRecordOk r ∨ (g.valid ∧ (g.nrank = 0 ∨ 1008 < g.nrank ∨ !g.clean)) then .ok (s, stBADREC)
        else if !g.valid ∨ (!runPriv cmd.w ∧ g.asid ≠ asid) ∨ g.nrank ≤ rank ∨ g.ranks[rank]? ≠ some (s.dieKey die) then
          .ok (s, stDENIED)
        else
          match free with
          | none => .ok (s, stNORES)
          | some i =>
            if 64 < (used.map Comm.stg).sum + bits r[1] 31 24 ∨ 4096 < (used.map Comm.pops).sum + bits r[1] 47 32 then
              .ok (s, stNORES)
            else
              let used := s.occupied i gno rank (s.dieKey die)
              .ok (s.modComm die i (boundComm r gno g c (used .data) (used .copy)), BitVec.ofNat 64 i)

/-- Whether a command may use a communicator (R328): of its ASID, or privileged. -/
def Comm.admits (c : Comm) (w : Vector Word 8) : Bool := runPriv w || decide (c.asid = runAsid w)

/-- kcomm.free (R328): releases the communicator and discards its held chunks, so that their slots have their credits
again (R338). -/
def State.kcommFree (s : State) (die c : Nat) (cmd : Cmd) : State × Word :=
  let x := s.comm die c
  if !x.bound then (s, stNOOBJ)
  else if !x.admits cmd.w then (s, stDENIED)
  else if x.play.isSome ∨ x.inbox.any fun q => runOpc q.w = 0x56 then (s, stBUSY)
  else
    ((s.modComm die c fun x => { Comm.reset with inbox := x.inbox }).modNet fun n =>
      { n with credits := n.credits ++ x.staged.map fun ch => { ch with data := [] } }, 0)

/-- KCOMM_BIND_CMD (R328, R346): a kcomm.bind at the head of the control inbox, or a command there with a
reserved F. -/
def execKcommBindCmd (die : Nat) (s : State) : Host.Outcome State Fault Refusal :=
  s.event (match s.runInbox die 4 with
    | [] => s
    | cmd :: _ =>
      if runF cmd.w = 1 then s
      else if runF cmd.w ≠ 0 then s.runServe die 4 cmd (.error (0x002#10, 0))
      else s.runServe die 4 cmd (s.kcommBind die cmd))

/-- Whether a communicator has an earlier command that has not replied (R339, log 76). -/
def Comm.before (x : Comm) (cmd : Cmd) : Bool :=
  x.play.isSome || x.inbox.any fun q => decide (q.id < cmd.id)

/-- KCOMM_FREE_CMD (R328, R346): a kcomm.free at the head of the control inbox, behind the communicator's earlier
commands (R339). -/
def execKcommFreeCmd (die comm : Nat) (s : State) : Host.Outcome State Fault Refusal :=
  s.event (match s.runInbox die 4 with
    | [] => s
    | cmd :: _ =>
      if runF cmd.w ≠ 1 ∨ runComm cmd.w ≠ comm % 4 ∨ (s.comm die comm).before cmd then s
      else s.runServe die 4 cmd (.ok (s.kcommFree die comm cmd)))

/-- Whether a command of a communicator waits: for a play, or for an earlier kcomm.free of it (R339, log 76). -/
def State.behind (s : State) (die c : Nat) (cmd : Cmd) : Bool :=
  (s.comm die c).play.isSome || (s.die die).control.any fun q =>
    decide (runF q.w = 1) && decide (runComm q.w = c % 4) && decide (q.id < cmd.id)

/-! ### Plans (R329 to R334) -/

/-- An op of a plan image, and whether its zero fields are zero (R330). -/
def planOpOf (w0 w1 w2 w3 : Word) : PlanOp × Bool :=
  let succ := [bits w0 43 32, bits w0 55 44, bits w1 11 0].filterMap fun n => if n = 0 then none else some (n - 1)
  (⟨bits w0 3 0, bits w0 7 4, bits w0 11 8, bits w0 15 12, bits w0 25 16, succ.eraseDups, bits w1 27 12,
    bits w1 39 28, bits w2 39 0, bits w3 56 40, bits w3 39 0⟩,
   decide (bits w0 63 56 = 0) && decide (bits w0 31 26 = 0) && decide (bits w1 63 40 = 0) && decide (bits w2 63 40 = 0) &&
     decide (bits w3 63 57 = 0))

/-- Bytes of an element of a reduction code (R332). -/
def redSize (red : Nat) : Nat := [4, 2, 4, 8, 12, 4, 4, 8, 8, 1].getD red 1

/-- Staging slots of a communicator (R328). -/
def Comm.slots (c : Comm) : Nat := c.stg * 65536 / 2 ^ c.chunk / (if c.timeout = 0 then 1 else 2)

/-- Whether one op keeps the rules of R331 to R334, given the flags of the buffers. -/
def PlanOp.fits (o : PlanOp) (c : Comm) (flags : List Nat) (n : Nat) : Bool :=
  let flag (b : Nat) := flags.getD b 0
  let peer := decide (o.peer < c.ranks.length) && decide (o.peer ≠ c.rank)
  o.succ.all (fun i => decide (i < n)) &&
  (if o.kind = 3 then
    decide (o.red = 0) && decide (o.sb = 0) && decide (o.db = 0) && decide (o.peer = 0) && decide (o.slot = 0) &&
      decide (o.soff = 0) && decide (o.len = 0) && decide (o.doff = 0)
  else
    decide (o.kind ≤ 4) && decide (o.red ≤ 9) && (decide (o.kind = 1) || decide (o.red = 0)) &&
    decide (o.len ≤ 2 ^ c.chunk) && decide (o.len % (if o.kind = 4 then 64 else redSize o.red) = 0) && decide (o.slot < c.slots) &&
    (match o.kind with
      | 0 => decide (flag o.sb ≠ 0) && peer
      | 1 => (decide (flag o.db = 2) || decide (flag o.db = 3)) && (decide (o.red = 0) || decide (flag o.sb ≠ 0)) && peer
      | 2 => decide (flag o.sb ≠ 0) && decide (o.peer = 0)
      | _ => decide (flag o.db = 3) && decide (flag o.sb = 3)))

/-- The ops that can complete, found in at most `fuel` rounds. -/
def planOrder (ops : List PlanOp) : Nat → List Nat → List Nat
  | 0, done => done
  | fuel + 1, done =>
    planOrder ops fuel (done ++ (List.range ops.length).filter fun i =>
      !done.contains i && ((List.range ops.length).zip ops).all fun e => !e.2.succ.contains i || done.contains e.1)

/-- Whether each DEP is right, the graph has no cycle and the OUT ranges are disjoint (R334). -/
def planSound (ops : List PlanOp) (flags : List Nat) : Bool :=
  let named (i : Nat) := (ops.filter fun o => o.succ.contains i).length
  let outs := ops.filter fun o => decide (o.kind = 1) && decide (flags.getD o.db 0 = 2)
  (((List.range ops.length).zip ops).all fun e => decide (e.2.dep = named e.1)) &&
  decide ((planOrder ops ops.length []).length = ops.length) &&
  ((List.range outs.length).zip outs).all fun e => ((List.range outs.length).zip outs).all fun f =>
    decide (e.1 = f.1) || decide (e.2.db ≠ f.2.db) || !overlap e.2.doff e.2.len f.2.doff f.2.len

/-- Whether a plan header is in range (R329). -/
def planHeaderOk (h : Vector Word 8) (pops : Nat) : Bool :=
  let nbuf := bits h[0] 55 48
  decide (bits h[0] 31 0 = 0x014C504B) && decide (1 ≤ bits h[0] 47 32) && decide (bits h[0] 47 32 ≤ pops) &&
  decide (1 ≤ nbuf) && decide (nbuf ≤ 16) && decide (bits h[0] 63 60 = 0) &&
  ((List.range 16).all fun b => decide (bits h[1] (4 * b + 3) (4 * b) ≤ (if b < nbuf then 3 else 0))) &&
  decide (h[2] = 0) && decide (h[3] = 0) && decide (h[4] = 0) && decide (h[5] = 0) && decide (h[6] = 0) && decide (h[7] = 0)

/-- KPLAN (R334): the state and the result word. -/
def State.kplan (s : State) (die c : Nat) (cmd : Cmd) : Except (BitVec 10 × Word) (State × Word) := do
  let x := s.comm die c
  if !x.bound then .ok (s, stNOOBJ)
  else if !x.admits cmd.w then .ok (s, stDENIED)
  else
    let core := cmd.core die
    let (s, l) ← s.unitWords core (runAsid cmd.w) (runClass cmd.w) (runAddr1 cmd.w) 8
    let h := vec8 l
    if !planHeaderOk h x.pops then .ok (s, stBADREC)
    else
      let n := bits h[0] 47 32
      let (s, body) ← s.unitWords core (runAsid cmd.w) (runClass cmd.w) (runAddr1 cmd.w + 64) (4 * n)
      let ops := (List.range n).map fun i =>
        planOpOf (body.getD (4 * i) 0) (body.getD (4 * i + 1) 0) (body.getD (4 * i + 2) 0) (body.getD (4 * i + 3) 0)
      let flags := (List.range 16).map fun b => bits h[1] (4 * b + 3) (4 * b)
      let plan : Plan := ⟨bits h[0] 55 48, bits h[0] 59 56, flags, ops.map (·.1)⟩
      if (ops.all fun o => o.2 && o.1.fits x flags n) && planSound plan.ops flags then
        .ok (s.modComm die c fun x => { x with plan := some plan }, BitVec.ofNat 64 n)
      else .ok (s, stBADREC)

/-- KPLAN_CMD (R334, R339); a reserved OPC or F ends here too, with 0x002. -/
def execKplanCmd (die comm : Nat) (s : State) : Host.Outcome State Fault Refusal :=
  s.event (match s.runInbox die (comm % 4) with
    | [] => s
    | cmd :: _ =>
      let opc := runOpc cmd.w
      if s.behind die comm cmd ∨ opc = 0x56 then s
      else if opc ≠ 0x55 then s.runServe die (comm % 4) cmd (.error (0x002#10, 0))
      else s.runServe die (comm % 4) cmd (s.kplan die comm cmd))

/-! ### Plays (R335, R338) -/

/-- A footprint of a play's buffers: TT 0 of this module or TT 1 of this die (R335). -/
def State.playFoot (s : State) (die : Nat) (x : Comm) (cls : BitVec 2) (kind : AccKind) (va n : Nat) :
    Except (BitVec 10 × Word) Foot :=
  if n = 0 then .ok ⟨[], va, va, []⟩
  else
    match s.foot x.core x.asid cls kind [(va, n)] (va, va + n) with
    | .error e => .error e
    | .ok f =>
      if f.pages.all fun p => if p.2.tt = 0 then decide (nodeOf p.2.key = s.node)
          else (windowCore p.2.pa).any fun o => decide (dieOf o = die) then .ok f
      else .error (0x106#10, BitVec.ofNat 64 va)

/-- The tables of a footprint's pages are read as memory answers (R134, R358). -/
def State.openFoot (s : State) (x : Comm) (f : Foot) : State :=
  f.pages.foldl (fun s e => s.resolveTables x.core x.asid (e.1 * 0x10000)) s

/-- Writes bytes to a whole footprint, or none of them where an access would fail. -/
def State.writeFoot (s : State) (x : Comm) (f : Foot) (data : List (Byte × Bool)) : State :=
  let s := s.openFoot x f
  if (s.reachable f.pieces).2.isSome then s else s.scatter f.pieces data

/-- STATUS of a play (R335). -/
def statusWordOf (abort : Option (BitVec 10 × Nat)) (done : Nat) : Word :=
  match abort with
  | none => fields [(1, 62), (done, 0)]
  | some (cause, origin) => fields [(2, 62), (cause.toNat, 48), (origin, 32), (done, 0)]

/-- Whether an op has completed. -/
def OpState.isDone : OpState → Bool
  | .completed => true
  | _ => false

/-- Whether an op has started and not yet ended. -/
def OpState.isStarted : OpState → Bool
  | .started _ => true
  | _ => false

/-- The bytes of the COMMIT bitmap of a play. -/
def commitBytes (ops : List OpState) : List (Byte × Bool) :=
  (List.range ((ops.length + 7) / 8)).map fun j =>
    (BitVec.ofNat 8 (((List.range 8).filter fun i => (ops[8 * j + i]?).any OpState.isDone).map fun i => 2 ^ i).sum, false)

/-- Discards the held chunks of plays that have ended, and returns their credits (R338). -/
def State.dropBehind (s : State) (die c : Nat) : State :=
  let x := s.comm die c
  let old (ch : Chunk) : Bool := decide (ch.play ≤ x.playNo)
  (s.modComm die c fun x =>
    { x with staged := x.staged.filter fun ch => !old ch, seen := x.seen.filter fun e => decide (x.playNo < e.2.2) }).modNet
      fun n => { n with credits := n.credits ++ x.staged.filter old }

/-- The end of a play (R335): COMMIT, the range entries, STATUS, the reply. -/
def State.finishPlay (s : State) (die c : Nat) (p : Play) : State :=
  let x := s.comm die c
  let cls := runClass p.cmd.w
  let bm := commitBytes p.ops
  let s := if p.commit = 0 then s
    else match s.playFoot die x cls .store p.commit.toNat bm.length with
      | .error _ => s
      | .ok f => s.writeFoot x f bm
  let s := s.modDie die fun d => { d with ranges := d.ranges.filter fun r => r.comm ≠ c % 4 }
  let s := (s.modComm die c fun x => { x with play := none }).dropBehind die c
  let cause := (p.abort.map (·.1)).getD 0
  match s.runAgain p.cmd cause 0 with
  | some (i, f) => (s.pushHead die (c % 4) { p.cmd with tries := p.cmd.tries + 1 }).commandRetry i f p.cmd.tries
  | none => s.runEnd die p.cmd (statusWordOf p.abort (p.ops.filter OpState.isDone).length) cause 0

/-- Whether an op of a communicator runs: one that the Runner has chosen has started (R341, R347). -/
def State.running (s : State) (die c : Nat) (p : Play) : Bool :=
  p.ops.any OpState.isStarted || (s.die die).chosen.any fun e => decide (e.1 = c % 4)

/-- Ends the play of a communicator where it has ended: every op completed, or aborted with no op that runs. -/
def State.settlePlay (s : State) (die c : Nat) : State :=
  match (s.comm die c).play with
  | none => s
  | some p =>
    if (p.abort.isNone ∧ p.ops.all OpState.isDone) ∨ (p.abort.isSome ∧ !s.running die c p) then s.finishPlay die c p
    else s

/-- Abort tokens to every other rank (R341). -/
def State.sendTokens (s : State) (x : Comm) (c play : Nat) (cause : BitVec 10) (origin : Nat) : State :=
  s.modNet fun n =>
    { n with tokens := n.tokens ++ ((List.range x.ranks.length).zip x.ranks).filterMap fun e =>
        if e.1 = x.rank then none else some ⟨e.2, e.1, x.group, c % 4, play, cause, origin⟩ }

/-- Aborts the running play of a communicator (R341), telling the other ranks where it began here. A play that has been
aborted before ends where its last op has. -/
def State.abortPlay (s : State) (die c : Nat) (cause : BitVec 10) (origin : Nat) (tell : Bool) : State :=
  let x := s.comm die c
  match x.play with
  | none => s
  | some p =>
    if p.abort.isSome then s.settlePlay die c
    else
      let s := s.modComm die c fun x => { x with play := some { p with abort := some (cause, origin) } }
      let s := if tell then s.sendTokens x c p.key cause origin else s
      s.settlePlay die c

/-- Reads the play record: COMMIT and the buffers (R335). -/
def State.playRecord (s : State) (die : Nat) (cmd : Cmd) : Except (BitVec 10 × Word) (State × Word × List (Word × Nat)) := do
  let (s, l) ← s.unitWords (cmd.core die) (runAsid cmd.w) (runClass cmd.w) (runAddr0 cmd.w) 40
  .ok (s, BitVec.ofNat 64 (bits (l.getD 1 0) 51 0), (List.range 16).map fun b =>
    (BitVec.ofNat 64 (bits (l.getD (8 + 2 * b) 0) 51 0), bits (l.getD (9 + 2 * b) 0) 39 0))

/-- The range entries of a play: each used buffer, IN read-locked, OUT and SCR write-locked (R158, R335). -/
def playRanges (c : Nat) (asid : BitVec 16) (flags : List Nat) (bufs : List (Word × Nat)) : List BufferRange :=
  (flags.zip bufs).filterMap fun e => if e.1 = 0 then none else some ⟨c % 4, asid, e.2.1.toNat, e.2.2, decide (e.1 ≠ 1)⟩

/-- Replaces the range entries of a communicator. -/
def State.setRanges (s : State) (die c : Nat) (rs : List BufferRange) : State :=
  s.modDie die fun d => { d with ranges := (d.ranges.filter fun r => r.comm ≠ c % 4) ++ rs }

/-- Whether a rank of a communicator lies on a node that cannot be reached (R399). -/
def State.lostRank (s : State) (x : Comm) : Bool :=
  x.ranks.any fun key => decide (key / 4 ≠ s.node) && s.module.lost.contains (BitVec.ofNat 16 (key / 4))

/-- Starts a play whose communicator is bound and planned (R335, R338); one with a rank that cannot be reached
aborts (R399). -/
def State.startPlay (s : State) (die c : Nat) (cmd : Cmd) (plan : Plan) : State :=
  let s := s.modComm die c fun x => { x with playNo := x.playNo + 1 }
  let x := s.comm die c
  let fresh := plan.ops.map fun o => OpState.waiting o.dep s.ns 0
  let blank : Play := ⟨cmd, x.playNo, 0, [], fresh, none⟩
  let fail (s : State) (e : BitVec 10) : State :=
    (s.modComm die c fun x => { x with play := some blank }).abortPlay die c e x.rank true
  match s.playRecord die cmd with
  | .error e => fail (s.sawPoison (cmd.core die) (runAsid cmd.w) e.1 e.2) e.1
  | .ok (s, commit, bufs) =>
    match if commit = 0 then .ok ⟨[], 0, 0, []⟩
        else s.playFoot die x (runClass cmd.w) .store commit.toNat ((plan.ops.length + 7) / 8) with
    | .error e => fail (s.sawPoison x.core x.asid e.1 e.2) e.1
    | .ok f =>
      let s := s.openFoot x f
      if s.lostRank x then fail s 0x3C1#10 else
      let s := s.setRanges die c (playRanges c x.asid plan.bufs bufs)
      let s := s.modComm die c fun x => { x with play := some { blank with commit := commit, bufs := bufs } }
      match x.aborts.find? fun a => a.1 = x.playNo with
      | some a => (s.modComm die c fun x => { x with aborts := x.aborts.filter fun a => a.1 ≠ x.playNo }).abortPlay die c
          a.2.1 a.2.2 false
      | none => s

/-- PLAY (R335): a KPLAY at the head of a communicator's inbox starts when the previous command of the
communicator has replied (R339). -/
def execPlay (die comm : Nat) (s : State) : Host.Outcome State Fault Refusal :=
  s.event (match s.runInbox die (comm % 4) with
    | [] => s
    | cmd :: _ =>
      let x := s.comm die comm
      if runOpc cmd.w ≠ 0x56 ∨ s.behind die comm cmd then s
      else
        let s := s.dropHead die (comm % 4)
        let refuse (cause : BitVec 10) : State :=
          match s.runAgain cmd cause 0 with
          | some (i, f) => (s.pushHead die (comm % 4) { cmd with tries := cmd.tries + 1 }).commandRetry i f cmd.tries
          | none => s.runEnd die cmd (statusWordOf (some (cause, x.rank)) 0) cause 0
        if 2 ≤ runF cmd.w then refuse 0x002#10
        else
          match x.plan with
          | none => refuse 0x335#10
          | some plan => if x.admits cmd.w then s.startPlay die comm cmd plan else refuse 0x336#10)

/-! ### Issue (R339, R344, R345) -/

/-- A KPLAY that the issue finds its communicator idle for: its play starts next, so that its buffers are guarded from
the issue on (R344, log 91). -/
def State.enterBuffers (s : State) (die c : Nat) (cmd : Cmd) : State :=
  let x := s.comm die c
  match if runOpc cmd.w = 0x56 ∧ x.admits cmd.w then x.plan else none with
  | none => s
  | some plan =>
    match s.playRecord die cmd with
    | .error _ => s
    | .ok (s, _, bufs) => s.setRanges die c (playRanges c x.asid plan.bufs bufs)

/-- The words of a command of an instruction (R326). -/
def Slot.runWords (sl : Slot) (k opc f comm rkind : Nat) (addr0 addr1 : Word) : Vector Word 8 :=
  #v[fields [(opc, 0), (f, 8), (comm, 11), (rkind, 14), ((keySlot k).val, 16), (sl.jobcol.toNat, 19),
       ((decide (2 ≤ sl.cls.toNat)).toNat, 25), (sl.asid.toNat, 26)],
     sl.ctxid.setWidth 64, addr0, addr1, 0, 0, 0, 0]

/-- Checks the handle of a result word or play record: alignment, translation for writing, own scratchpad. -/
def State.runTarget (s : State) (k : Nat) (h : Handle) (align : Nat) : Except (BitVec 10 × Word) State :=
  if h.base.toNat % align ≠ 0 then .error (0x104#10, h.base)
  else
    match s.translate (keyCore k) (s.slot k).asid (s.slot k).cls .store h.base with
    | .error e => .error (e, h.base)
    | .ok x => if x.tt = 1 ∧ ownWindow k x then .ok (s.fillTlb (keyCore k) x) else .error (0x106#10, h.base)

/-- Checks the handle of a bind record or plan image: alignment, translation for reading, TT 0 or 1. -/
def State.runSource (s : State) (k : Nat) (h : Handle) : Except (BitVec 10 × Word) State :=
  if h.base.toNat % 64 ≠ 0 then .error (0x104#10, h.base)
  else
    match s.translate (keyCore k) (s.slot k).asid (s.slot k).cls .load h.base with
    | .error e => .error (e, h.base)
    | .ok x => if x.tt ≤ 1 then .ok (s.fillTlb (keyCore k) x) else .error (0x106#10, h.base)

/-- The issue of a Runner major (R339, R345): checks, waits, the bead, the post. -/
def State.runIssue (s : State) (k opc f comm rkind align : Nat) (td : HandleNo) (ta : Option HandleNo) : Act :=
  let sl := s.slot k
  let die := dieOf (keyCore k)
  let d := sl.handle td
  let a := ta.map sl.handle
  let hs := d :: a.toList
  match s.missing hs with
  | some n => .undef n
  | none =>
    if hs.any fun h => !h.ok false then .trap 0x003#10 0
    else
      match (s.runTarget k d align).bind fun s => a.elim (.ok s) fun h => s.runSource k h with
      | .error (e, va) => .trap e va
      | .ok s =>
        let w := sl.runWords k opc f comm rkind d.base (a.elim 0 Handle.base)
        let inbox := if runControl w then 4 else comm
        if rkind = 0 ∧ sl.beads[2] = 63 then .wait s (.beadRoom 2)
        else if 4 ≤ (s.runInbox die inbox).length then .wait s (.runnerRoom die inbox)
        else
          let s := s.release k
          let cmd := s.newCmd k w true none []
          let s := if rkind = 0 then s.modSlot k fun sl => sl.beadUp 2 else s
          let idle := decide ((s.comm die comm).inbox = []) && !s.behind die comm cmd
          let s := s.bump
          .next (if inbox = 4 then s.modDie die fun x => { x with control := x.control ++ [cmd] }
            else
              let s := s.modComm die comm fun x => { x with inbox := x.inbox ++ [cmd] }
              if idle then s.enterBuffers die comm cmd else s)

/-- A Runner major (R345): 3 cycles. -/
def State.runInsn (s : State) (g : PredNo) (opc f comm rkind align : Nat) (td : HandleNo) (ta : Option HandleNo) :
    Host.Outcome State Fault Refusal :=
  s.run { feats := [49], engine := true } 4 3 g fun k => s.runIssue k opc f comm rkind align td ta

/-- KPLAN (R334). -/
def execKplan (td ta : HandleNo) (ctl : BitVec 2) (g : PredNo) (s : State) : Host.Outcome State Fault Refusal :=
  s.runInsn g 0x55 0 ctl.toNat 0 8 td (some ta)

/-- KPLAY_CP (R335). -/
def execKplayCp (td : HandleNo) (ctl : BitVec 2) (g : PredNo) (s : State) : Host.Outcome State Fault Refusal :=
  s.runInsn g 0x56 0 ctl.toNat 0 64 td none

/-- KPLAY_FLAG (R335). -/
def execKplayFlag (td : HandleNo) (ctl : BitVec 2) (g : PredNo) (s : State) : Host.Outcome State Fault Refusal :=
  s.runInsn g 0x56 1 ctl.toNat 1 64 td none

/-- KCOMM_BIND (R328). -/
def execKcommBind (td ta : HandleNo) (g : PredNo) (s : State) : Host.Outcome State Fault Refusal :=
  s.runInsn g 0x57 0 0 0 8 td (some ta)

/-- KCOMM_FREE (R328). -/
def execKcommFree (td : HandleNo) (ctl : BitVec 2) (g : PredNo) (s : State) : Host.Outcome State Fault Refusal :=
  s.runInsn g 0x57 1 ctl.toNat 0 8 td none

/-- RUNNER_INBOX_POST (R326): refused with 0x203, retried, or accepted. The command is numbered as it is
accepted, so that numbers follow the order of the inboxes; one of the S-die is in the name of the first core of the die
(logs 22, 48). -/
def execRunnerInboxPost (n : Nat) (s : State) : Host.Outcome State Fault Refusal :=
  s.event (match s.arriving n with
    | none => s
    | some p =>
      match p.inbox with
      | .runner die =>
        let inbox := if runControl p.w then 4 else runComm p.w
        if !runPriv p.w ∨ 2 ≤ runRkind p.w then s.failPost n p 0x203#10
        else if 4 ≤ (s.runInbox die inbox).length then s.refusePost n p
        else
          let s := (s.dropPost n).postAccepted p.id
          let cmd := { p.cmd ((p.poster.map Issuer.core).getD (die * 1024)) (p.w[1].setWidth 32) with id := s.nextId }
          let s := s.bump
          if inbox = 4 then s.modDie die fun x => { x with control := x.control ++ [cmd] }
          else s.modComm die inbox fun x => { x with inbox := x.inbox ++ [cmd] }
      | _ => s)

/-- KABRT (R342): acts at once. -/
def execKabrt (d : Dst) (a : Src) (s : State) : Host.Outcome State Fault Refusal :=
  s.run { feats := [49], engine := true } 4 2 0 fun k =>
    let sl := s.slot k
    let die := dieOf (keyCore k)
    let c := bits (sl.read a) 1 0
    let x := s.comm die c
    if !x.bound then s.gives k d stNOOBJ
    else if sl.cls.toNat < 2 ∧ x.asid ≠ sl.asid then s.gives k d stDENIED
    else if x.play.isNone then s.gives k d stNOOBJ
    else (s.abortPlay die c 0x330#10 x.rank true).givesIfLive k d 0 2

/-! ### Arbitration (R336, R337, R347) -/

/-- The ops of a play with their plan. -/
def Comm.opsOf (x : Comm) : List (Nat × PlanOp × OpState) :=
  match x.plan, x.play with
  | some pl, some p => (List.range pl.ops.length).zip (pl.ops.zip p.ops)
  | _, _ => []

/-- The receiver's communicator for a rank of a group, where it is of this module and bound. -/
def State.peerComm (s : State) (group rank c key : Nat) : Option (Nat × Comm) :=
  if key / 4 ≠ s.node then none
  else
    let y := s.comm (key % 4) c
    if y.bound ∧ y.group = group ∧ y.rank = rank then some (key % 4, y) else none

/-- Whether a rank can take chunks: its communicator is bound, or it lies on another module (log 14). -/
def State.takes (s : State) (x : Comm) (c r : Nat) : Bool :=
  match x.ranks[r]? with
  | none => false
  | some key => decide (key / 4 ≠ s.node) || (s.peerComm x.group r c key).isSome

/-- The buddy of a rank, if it exists (R340). -/
def Comm.buddy (x : Comm) (r : Nat) : Option Nat :=
  let b := r ^^^ 1
  if x.timeout ≠ 0 ∧ b < x.ranks.length then some b else none

/-- The ranks that an op sends to. -/
def Comm.targets (x : Comm) (o : PlanOp) : List Nat :=
  if o.kind = 0 then [o.peer] else if o.kind = 2 then (List.range x.ranks.length).filter fun r => r ≠ x.rank else []

/-- Whether a sending op holds every credit that it needs (R337, R340). -/
def State.creditsFree (s : State) (x : Comm) (c : Nat) (o : PlanOp) : Bool :=
  ((x.targets o).all fun r => s.takes x c r && !x.credits.any fun e => decide (e.1 = r) && decide (e.2.1 = o.slot)) &&
  match x.buddy x.rank with
  | none => true
  | some b => s.takes x c b && !x.buddyUse.any fun e => e.2.1 = o.slot

/-- The chunk that a RECV consumes, if it has arrived (R338). -/
def Comm.arrived (x : Comm) (o : PlanOp) (play : Nat) : Option Chunk :=
  x.staged.find? fun ch => decide (ch.rank = o.peer) && decide (ch.slot = o.slot) && decide (ch.play = play)

/-- The ops of a communicator that are enabled and have their credit or arrival, in ascending index (R336). -/
def State.eligibleOps (s : State) (die c : Nat) : List (Nat × PlanOp) :=
  let x := s.comm die c
  match x.play.filter fun p => p.abort.isNone with
  | none => []
  | some p =>
    (x.opsOf.filter fun e =>
      (match e.2.2 with
        | .waiting 0 _ _ => true
        | _ => false) &&
      (match e.2.1.kind with
        | 0 => s.creditsFree x c e.2.1
        | 1 => (x.arrived e.2.1 p.key).isSome
        | 2 => s.creditsFree x c e.2.1
        | _ => true)).map fun e => (e.1, e.2.1)

/-- Whether the Runner of a die runs an op. -/
def State.runnerBusy (s : State) (die : Nat) : Bool :=
  (s.die die).comms.toList.any fun x => x.play.any fun p => p.ops.any OpState.isStarted

/-- The communicators with an eligible op, in ascending id. -/
def State.contenders (s : State) (die : Nat) : List (Nat × Nat × PlanOp) :=
  (List.range 4).filterMap fun c => (s.eligibleOps die c).head?.map fun o => (c, o)

/-- The choice at an op boundary: aged communicators first, then the highest PRIO round-robin (R336). -/
def State.pickOp (s : State) (die : Nat) : Option (Nat × Nat × PlanOp) :=
  if s.runnerBusy die then none
  else
    let l := s.contenders die
    match l.find? fun e => 64 ≤ (s.comm die e.1).passed with
    | some e => some e
    | none =>
      let top := l.foldl (fun m e => Nat.max m (s.comm die e.1).prio.toNat) 0
      ((List.range 4).map fun i => ((s.die die).turn + i) % 4).findSome? fun c =>
        l.find? fun e => decide (e.1 = c) && decide ((s.comm die c).prio.toNat = top)

/-- The turn passes: the pointer moves on, and those passed over count it (R336). -/
def State.passTurn (s : State) (die chosen : Nat) : State :=
  let cs := (s.contenders die).map (·.1)
  let s := (List.range 4).foldl (fun s c => s.modComm die c fun x =>
    { x with passed := if c = chosen ∨ !cs.contains c then 0 else x.passed + 1 }) s
  s.modDie die fun d => { d with turn := (chosen + 1) % 4 }

/-- The op that the Runner has chosen to start (R347). -/
def State.chosenOp (s : State) (die : Nat) : Option (Nat × Nat × PlanOp) :=
  (s.die die).chosen.bind fun e => ((s.comm die e.1).opsOf.find? fun o => o.1 = e.2).map fun o => (e.1, e.2, o.2.1)

/-- The Runner of a die chooses what it starts next, where it is idle and has not chosen yet (R336, R347). -/
def State.chooseOp (s : State) (die : Nat) : State :=
  if (s.chosenOp die).isSome then s
  else
    let pick := s.pickOp die
    let s := match pick with
      | some e => s.passTurn die e.1
      | none => s
    s.modDie die fun d => { d with chosen := pick.map fun e => (e.1, e.2.1) }

/-- Before time passes, every idle Runner starts an op: it takes into account all that has become eligible until now
(R347). What the op does follows, before the Runner chooses again. -/
def State.chooseOps (s : State) : State := (List.range 4).foldl State.chooseOp s

/-- Changes the state of one op of a running play. -/
def State.setOp (s : State) (die c i : Nat) (o : OpState) : State :=
  s.modComm die c fun x => { x with play := x.play.map fun p => { p with ops := putAt p.ops i o } }

/-- An op completes: the counters of its successors fall (R331). -/
def State.completeOp (s : State) (die c i : Nat) (succ : List Nat) : State :=
  let s := s.setOp die c i .completed
  let s := s.modComm die c fun x => { x with play := x.play.map fun p =>
    { p with ops := ((List.range p.ops.length).zip p.ops).map fun e =>
        match e.2 with
        | .waiting n since asked =>
          if succ.contains e.1 then .waiting (n - 1) (if n = 1 then s.ns else since) asked else e.2
        | o => o } }
  s.settlePlay die c

/-- A buffer range of an op (R335): its footprint, or the cause that ends the op. -/
def State.bufferFoot (s : State) (die : Nat) (x : Comm) (p : Play) (kind : AccKind) (b off n : Nat) :
    Except (BitVec 10 × Word) Foot :=
  let buf := p.bufs.getD b (0, 0)
  if buf.2 < off + n then .error (0x334#10, 0)
  else s.playFoot die x (runClass p.cmd.w) kind (buf.1.toNat + off) n

/-- The bytes of a buffer range, or the cause that ends the op. -/
def State.bufferBytes (s : State) (die : Nat) (x : Comm) (p : Play) (b off n : Nat) :
    Except (BitVec 10 × Word) (State × List (Byte × Bool)) :=
  match s.bufferFoot die x p .load b off n with
  | .error e => .error e
  | .ok f =>
    match (s.openFoot x f).gather f.pieces with
    | (s, data, none) => .ok (s, data)
    | (_, _, some e) => .error e

/-- Writes a buffer range, or the cause that ends the op. -/
def State.bufferWrite (s : State) (die : Nat) (x : Comm) (p : Play) (b off : Nat) (data : List (Byte × Bool)) :
    State × Option (BitVec 10) :=
  match s.bufferFoot die x p .store b off data.length with
  | .error e => (s.sawPoison x.core x.asid e.1 e.2, some e.1)
  | .ok f =>
    let s := s.openFoot x f
    let r := s.reachable f.pieces
    (s.scatter r.1 data, r.2.map (·.1))

/-- An op ends with a cause, which aborts its play (R341). -/
def State.failOp (s : State) (die c : Nat) (x : Comm) (e : BitVec 10 × Word) : State :=
  (s.sawPoison x.core x.asid e.1 e.2).abortPlay die c e.1 x.rank true

/-- A SEND or MCAST starts (R331, R337, R340): it takes its credits and its chunks leave. -/
def State.sendOp (s : State) (die c i : Nat) (o : PlanOp) (x : Comm) (p : Play) : State :=
  match s.bufferBytes die x p o.sb o.soff o.len with
  | .error e => s.failOp die c x e
  | .ok (s, data) =>
    let targets := x.targets o
    let chunk (kind : ChunkKind) (r rx : Nat) : Chunk :=
      ⟨kind, s.dieKey die, x.rank, x.ranks.getD rx 0, r, x.group, c, o.slot, p.key, i, data⟩
    let copies := match x.buddy x.rank with
      | none => []
      | some b => targets.map fun r => chunk .copy r b
    let s := s.modNet fun n => { n with chunks := n.chunks ++ targets.map (fun r => chunk .data r r) ++ copies }
    let s := s.modComm die c fun x =>
      { x with credits := x.credits ++ targets.map fun r => (r, o.slot, p.key)
               buddyUse := if copies = [] then x.buddyUse else x.buddyUse ++ targets.map fun r => (r, o.slot, p.key) }
    if targets = [] then s.completeOp die c i o.succ else s.setOp die c i (.started targets.length)

/-- One element of a combine (R332). -/
def combineElem (red x y : Nat) : Nat :=
  let n := 8 * redSize red
  match red with
  | 5 | 7 => if twos n x < twos n y then y else x
  | 6 | 8 => if twos n x < twos n y then x else y
  | 9 => Nat.max x y
  | _ => (x + y) % 2 ^ n

/-- Combines two equal ranges element by element; a poisoned operand poisons its element (R332, R341). -/
def combineBytes (red : Nat) (x y : List (Byte × Bool)) : List (Byte × Bool) :=
  let n := redSize red
  ((blocksOf n (y.length / n) x).zip (blocksOf n (y.length / n) y)).flatMap fun e =>
    let bad := e.1.any (·.2) || e.2.any (·.2)
    (leBytes (combineElem red (leNat (e.1.map (·.1))) (leNat (e.2.map (·.1)))) n).map fun b => (b, bad)

/-- A RECV (R331, R332): the chunk that has arrived is combined and written, and its credit returned. -/
def State.recvOp (s : State) (die c i : Nat) (o : PlanOp) (x : Comm) (p : Play) (ch : Chunk) : State :=
  let s := s.modComm die c fun x => { x with staged := x.staged.filter fun y => y ≠ ch }
  let s := s.modNet fun n => { n with credits := n.credits ++ [{ ch with data := [] }] }
  if ch.data.length ≠ o.len then s.abortPlay die c 0x333#10 x.rank true
  else
    let src : Except (BitVec 10 × Word) (State × List (Byte × Bool)) :=
      if o.red = 0 then .ok (s, ch.data)
      else (s.bufferBytes die x p o.sb o.soff o.len).map fun r => (r.1, combineBytes o.red r.2 ch.data)
    match src with
    | .error e => s.failOp die c x e
    | .ok (s, data) =>
      match s.bufferWrite die x p o.db o.doff data with
      | (s, some e) => s.abortPlay die c e x.rank true
      | (s, none) => s.completeOp die c i o.succ

/-- One block of ALIGN (R333): the new exponent and elements, or nothing for 0x332. -/
def alignBlock (head e m : Nat) (elems : List Int) : Option (Nat × List Int) :=
  if m = 0xFF then some (0xFF, elems.map fun _ => 0)
  else
    let t := Nat.min (m + head) 254
    if t < e then none else some (t, elems.map fun i => i / 2 ^ (t - e))

/-- The blocks of an ALIGN op: 64 bytes of elements, E and M of each, with their poison. -/
def alignBlocks (head n : Nat) (data exps : List (Byte × Bool)) : Option (List (Byte × Bool) × List (Byte × Bool)) :=
  let blocks := (List.range n).map fun b =>
    let el := (data.drop (64 * b)).take 64
    let e := exps.getD b (0, false)
    let m := exps.getD (n + b) (0, false)
    let vals := (List.range 32).map fun i => twos 16 (leNat (((el.drop (2 * i)).take 2).map (·.1)))
    let bad := e.2 || m.2
    (alignBlock head e.1.toNat m.1.toNat vals).map fun r =>
      ((List.range 32).flatMap fun i =>
        (leBytes (lowBits 16 (r.2.getD i 0)) 2).map fun x => (x, bad || ((el.drop (2 * i)).take 2).any (·.2)),
       (BitVec.ofNat 8 r.1, bad))
  if blocks.all Option.isSome then
    some (blocks.flatMap fun b => (b.map (·.1)).getD [], blocks.filterMap fun b => b.map (·.2))
  else none

/-- An ALIGN op (R333). -/
def State.alignOp (s : State) (die c i : Nat) (o : PlanOp) (x : Comm) (p : Play) (head : Nat) : State :=
  let n := o.len / 64
  match (s.bufferBytes die x p o.db o.doff o.len).bind fun r =>
      (r.1.bufferBytes die x p o.sb o.soff (2 * n)).map fun e => (e.1, r.2, e.2) with
  | .error e => s.failOp die c x e
  | .ok (s, data, exps) =>
    match alignBlocks head n data exps with
    | none => s.abortPlay die c 0x332#10 x.rank true
    | some (el, ex) =>
      match s.bufferWrite die x p o.db o.doff el with
      | (s, some e) => s.abortPlay die c e x.rank true
      | (s, none) =>
        match s.bufferWrite die x p o.sb o.soff ex with
        | (s, some e) => s.abortPlay die c e x.rank true
        | (s, none) => s.completeOp die c i o.succ

/-- What the op that the Runner has chosen does, where it is of this kind (R336). -/
def State.runOp (s : State) (die kind : Nat) (go : State → Nat → Nat → PlanOp → Comm → Play → State) : State :=
  match s.chosenOp die with
  | none => s
  | some (c, i, o) =>
    if o.kind ≠ kind then s
    else
      let s := s.modDie die fun d => { d with chosen := none }
      let x := s.comm die c
      match x.play with
      | none => s
      | some p => go s c i o x p

/-- RUNNER_SEND_OP (R331). -/
def execRunnerSendOp (die : Nat) (s : State) : Host.Outcome State Fault Refusal :=
  s.event (s.runOp die 0 fun s c i o x p => s.sendOp die c i o x p)

/-- RUNNER_MCAST_OP (R331). -/
def execRunnerMcastOp (die : Nat) (s : State) : Host.Outcome State Fault Refusal :=
  s.event (s.runOp die 2 fun s c i o x p => s.sendOp die c i o x p)

/-- RUNNER_RECV_OP (R331). -/
def execRunnerRecvOp (die : Nat) (s : State) : Host.Outcome State Fault Refusal :=
  s.event (s.runOp die 1 fun s c i o x p =>
    match x.arrived o p.key with
    | none => s
    | some ch => s.recvOp die c i o x p ch)

/-- RUNNER_WAIT_OP (R331). -/
def execRunnerWaitOp (die : Nat) (s : State) : Host.Outcome State Fault Refusal :=
  s.event (s.runOp die 3 fun s c i o _ _ => s.completeOp die c i o.succ)

/-- RUNNER_ALIGN_OP (R333). -/
def execRunnerAlignOp (die : Nat) (s : State) : Host.Outcome State Fault Refusal :=
  s.event (s.runOp die 4 fun s c i o x p => s.alignOp die c i o x p ((x.plan.map Plan.head).getD 0))

/-! ### Arrivals, credits and buddies (R331, R338, R340, R341) -/

/-- A chunk for a receiver: held, or discarded where its play is behind or it came before (R338, R340). A
discarded chunk of a play that is behind returns its credit; the buddy's copy of one has none. -/
def State.receive (s : State) (ch : Chunk) : State :=
  let ack (s : State) : State :=
    if ch.kind = .data then s.modNet fun n => { n with acks := n.acks ++ [{ ch with data := [] }] } else s
  let back (s : State) : State :=
    if ch.kind = .data then s.modNet fun n => { n with credits := n.credits ++ [{ ch with data := [] }] } else s
  match s.peerComm ch.group ch.toRank ch.comm ch.dst with
  | none => back (ack s)
  | some (die, y) =>
    if ch.play < y.playNo ∨ (ch.play = y.playNo ∧ y.play.isNone) then back (ack s)
    else if y.timeout ≠ 0 ∧ y.seen.contains (ch.rank, ch.slot, ch.play) then ack s
    else ack (s.modComm die ch.comm fun y =>
      { y with staged := y.staged ++ [ch], seen := (ch.rank, ch.slot, ch.play) :: y.seen })

/-- The n-th of some chunks on their way, unless the path between its dies is down (R399). -/
def State.passing (s : State) (l : List Chunk) (n : Nat) : Option Chunk :=
  l[n]?.filter fun ch => !s.module.down.any fun d => decide (d.1.toNat = ch.src / 4) || decide (d.1.toNat = ch.dst / 4)

/-- CHUNK_ARRIVAL (R338). -/
def execChunkArrival (n : Nat) (s : State) : Host.Outcome State Fault Refusal :=
  .next (match s.passing s.net.chunks n with
    | none => s
    | some ch =>
      let s := s.modNet fun q => { q with chunks := q.chunks.eraseIdx n }
      if ch.kind = .copy then
        match s.peerComm ch.group (ch.rank ^^^ 1) ch.comm ch.dst with
        | none => s
        | some (die, _) => s.modComm die ch.comm fun y => { y with copies := y.copies ++ [ch] }
      else s.receive ch)

/-- SEND_ACCEPTED (R331): an acceptance reaches the sender; the last one completes its op. -/
def execSendAccepted (n : Nat) (s : State) : Host.Outcome State Fault Refusal :=
  s.event (match s.passing s.net.acks n with
    | none => s
    | some ch =>
      let s := s.modNet fun q => { q with acks := q.acks.eraseIdx n }
      match s.peerComm ch.group ch.rank ch.comm ch.src with
      | none => s
      | some (die, x) =>
        match x.play.filter (fun p => p.key = ch.play), x.opsOf.find? fun e => e.1 = ch.op with
        | some _, some (i, o, .started left) =>
          if left ≤ 1 then s.completeOp die ch.comm i o.succ else s.setOp die ch.comm i (.started (left - 1))
        | _, _ => s)

/-- Whether two chunks are copies of one: of the same sender, receiver, slot and play. -/
def Chunk.copyOf (q ch : Chunk) : Bool :=
  decide (q.group = ch.group) && decide (q.comm = ch.comm) && decide (q.rank = ch.rank) && decide (q.toRank = ch.toRank) &&
    decide (q.slot = ch.slot) && decide (q.play = ch.play)

/-- The sender's buddy drops its copy of a chunk, held or on its way (R340). -/
def State.dropCopy (s : State) (ch : Chunk) : State :=
  let s := s.modNet fun n => { n with chunks := n.chunks.filter fun q => !(decide (q.kind = .copy) && q.copyOf ch) }
  (List.range 4).foldl (fun s d => s.modComm d ch.comm fun y =>
    if y.bound ∧ y.group = ch.group ∧ y.rank = ch.rank ^^^ 1 then { y with copies := y.copies.filter fun q => !q.copyOf ch }
    else y) s

/-- CREDIT_RETURN (R338): the sender has the slot's credit again, and its buddy drops the copy (R340). -/
def execCreditReturn (n : Nat) (s : State) : Host.Outcome State Fault Refusal :=
  .next (match s.passing s.net.credits n with
    | none => s
    | some ch =>
      let s := (s.modNet fun q => { q with credits := q.credits.eraseIdx n }).dropCopy ch
      match s.peerComm ch.group ch.rank ch.comm ch.src with
      | none => s
      | some (die, _) => s.modComm die ch.comm fun x =>
          { x with credits := x.credits.filter fun e => e ≠ (ch.toRank, ch.slot, ch.play)
                   buddyUse := x.buddyUse.filter fun e => e ≠ (ch.toRank, ch.slot, ch.play) })

/-- A RECV that waits for its chunk: the op, its time and whether the buddy was asked. -/
def State.waitingRecv (s : State) (die c i : Nat) : Option (PlanOp × Nat × Nat × Comm × Play) :=
  let x := s.comm die c
  match x.play, x.opsOf.find? fun e => e.1 = i with
  | some p, some (_, o, .waiting 0 since asked) =>
    if p.abort.isNone ∧ o.kind = 1 ∧ x.timeout ≠ 0 ∧ (x.arrived o p.key).isNone then some (o, since, asked, x, p) else none
  | _, _ => none

/-- What a RECV asks the buddy of its PEER for, of rank `b`. -/
def Comm.askOf (x : Comm) (c : Nat) (o : PlanOp) (p : Play) (op b : Nat) : Chunk :=
  ⟨.answer, x.ranks.getD o.peer 0, o.peer, x.ranks.getD b 0, x.rank, x.group, c, o.slot, p.key, op, []⟩

/-- BUDDY_TIMEOUT (R340): a RECV that has waited TIMEOUT asks the buddy of PEER. -/
def execBuddyTimeout (die comm op : Nat) (s : State) : Host.Outcome State Fault Refusal :=
  .next (match s.waitingRecv die comm op with
    | some (o, since, 0, x, p) =>
      if s.ns < since + us x.timeout then s
      else
        let s := s.setOp die comm op (.waiting 0 since (s.ns + 1))
        match x.buddy o.peer with
        | none => s
        | some b => s.modNet fun n => { n with asks := n.asks ++ [x.askOf comm o p op b] }
    | _ => s)

/-- The copy that the asked buddy keeps, with the buddy's communicator. -/
def State.copyFor (s : State) (ask : Chunk) : Option (Comm × Chunk) :=
  (s.peerComm ask.group (ask.rank ^^^ 1) ask.comm ask.dst).bind fun e =>
    (e.2.copies.find? fun q => q.copyOf ask).map fun q => (e.2, q)

/-- BUDDY_COPY_REQUEST (R340): the buddy sends its copy as soon as it has one. -/
def execBuddyCopyRequest (n : Nat) (s : State) : Host.Outcome State Fault Refusal :=
  .next (match s.passing s.net.asks n with
    | none => s
    | some ask =>
      match s.copyFor ask with
      | none => s
      | some (y, q) => s.modNet fun n' =>
          { n' with asks := n'.asks.eraseIdx n
                    chunks := n'.chunks ++ [{ q with kind := .answer, dst := y.ranks.getD ask.toRank 0 }] })

/-- Whether the asked buddy has the copy, or its answer is on its way. -/
def State.copyComes (s : State) (ask : Chunk) : Bool :=
  (s.copyFor ask).isSome || s.net.chunks.any fun q => decide (q.kind = .answer) && q.copyOf ask

/-- RUNNER_SILENT (R340): the buddy has no copy after a further TIMEOUT. -/
def execRunnerSilent (die comm op : Nat) (s : State) : Host.Outcome State Fault Refusal :=
  s.event (match s.waitingRecv die comm op with
    | some (o, _, asked, x, p) =>
      let comes := (x.buddy o.peer).any fun b => s.copyComes (x.askOf comm o p op b)
      if asked = 0 ∨ s.ns + 1 < asked + us x.timeout ∨ comes then s else s.abortPlay die comm 0x331#10 x.rank true
    | none => s)

/-- ABORT_TOKEN (R341). -/
def execAbortToken (n : Nat) (s : State) : Host.Outcome State Fault Refusal :=
  s.event (match s.net.tokens[n]?.filter fun t => !s.module.down.any fun d => d.1.toNat = t.dst / 4 with
    | none => s
    | some t =>
      let s := s.modNet fun q => { q with tokens := q.tokens.eraseIdx n }
      match s.peerComm t.group t.toRank t.comm t.dst with
      | none => s
      | some (die, y) =>
        if y.play.any fun p => p.key = t.play then s.abortPlay die t.comm t.cause t.origin false
        else if y.playNo < t.play then s.modComm die t.comm fun y => { y with aborts := (t.play, t.cause, t.origin) :: y.aborts }
        else s)

end Sys2Proof.Machine
end

