-- ==== Sys2Proof/WellFormed.lean ====
section
/-! DEFINITION. Why an encoding is refused, and which instruction terms are well formed. -/

namespace Sys2Proof

/-- Why the decoder refuses a bit pattern (R64). -/
inductive DecodeFault where
  | undefOp         -- 0x001: reserved major or 16-bit OP
  | undefFunc       -- 0x002: unassigned function value, scope code 7, unassigned CSR number
  | reservedField   -- 0x004: a 1 in an unused or reserved field
  | badOperand      -- 0x003: reserved or illegal operand specifier
  | shortFetch      -- fewer bytes than the instruction has
  deriving DecidableEq, Repr

/-- The cause of a refused encoding (R64, R209). -/
def DecodeFault.cause : DecodeFault → BitVec 10
  | .undefOp => 0x001#10
  | .undefFunc => 0x002#10
  | .reservedField => 0x004#10
  | .badOperand => 0x003#10
  | .shortFetch => 0x101#10

/-- The CSR numbers that R92 assigns. -/
def csrAssigned (n : BitVec 12) : Bool :=
  let k := n.toNat
  decide (k ≤ 0x007) || (decide (0x010 ≤ k) && decide (k ≤ 0x014)) ||
  (decide (0x018 ≤ k) && decide (k ≤ 0x01B)) || (decide (0x020 ≤ k) && decide (k ≤ 0x027)) ||
  (decide (0x030 ≤ k) && decide (k ≤ 0x03F)) || (decide (0x040 ≤ k) && decide (k ≤ 0x047)) ||
  (decide (0x800 ≤ k) && decide (k ≤ 0x804)) || (decide (0xC00 ≤ k) && decide (k ≤ 0xC02))

/-- The scopes that hold a hardware barrier pool (R203, R204): CORE to MOD. -/
def scopeHasPool (s : BitVec 3) : Bool := decide (1 ≤ s.toNat) && decide (s.toNat ≤ 5)

/-- A specifier that names a register pair (R151, R200, R201): s1 to s62 or q0 to q6. -/
def isPair : Src → Bool
  | .s n => decide (1 ≤ n.toNat) && decide (n.toNat ≤ 62)
  | .q n => decide (n.toNat ≤ 6)
  | _ => false

/-- What is wrong with an instruction term that its typed operands do not already exclude: the first
fault in R65's order, or nothing. -/
def Instr.fault? : Instr → Option DecodeFault
  | .fenceAcq s | .fenceRel s | .fenceFull s => if s = 7 then some .undefFunc else none
  | .balloc s _ _ => if scopeHasPool s then none else some .undefFunc
  | .csrRd _ n | .csrSwp _ n | .csrWr _ n | .csrSet _ n | .csrClr _ n =>
    if csrAssigned n then none else some .undefFunc
  | .amoA96 _ _ v | .wlapp _ _ v | .wltakeCore _ v | .wltakeQuad _ v | .wltakeClus _ v =>
    if isPair v then none else some .badOperand
  | _ => none

/-- An instruction term that an encoding stands for (R64). -/
def Instr.wf (i : Instr) : Bool := i.fault?.isNone

end Sys2Proof
end

