-- ==== Sys2Proof/Decode.lean ====
section
/-! DEFINITION. Decoding (R51 to R68) and, after it, the encoder written from the same formats. -/

namespace Sys2Proof

/-- Bits `lo + len - 1` down to `lo` of an instruction word. -/
def seg {n : Nat} (w : BitVec n) (lo len : Nat) : BitVec len := w.extractLsb' lo len

/-- The next check of the decoder: go on if `c` holds, else refuse with `f` (R65's order is the
order in which a row lists its checks). -/
def onlyIf (c : Prop) [Decidable c] (f : DecodeFault) (k : Except DecodeFault Instr) :
    Except DecodeFault Instr :=
  if c then k else .error f

/-- Reads a source specifier (R55, R56). -/
def Src.ofBits (x : BitVec 7) : Option Src :=
  if x.toNat < 64 then some (.s (x.extractLsb' 0 6))
  else if x.toNat < 72 then some (.q (x.extractLsb' 0 3))
  else if h : 72 ≤ x.toNat ∧ x.toNat < 78 then some (.a ⟨x.toNat - 72, by omega⟩)
  else if 80 ≤ x.toNat ∧ x.toNat < 84 then some (.i (x.extractLsb' 0 2))
  else if 84 ≤ x.toNat ∧ x.toNat < 100 then some (.c (BitVec.ofNat 4 (x.toNat - 84)))
  else if x.toNat = 126 then some .last
  else none

/-- Reads a destination specifier (R55, R56). -/
def Dst.ofBits (x : BitVec 7) : Option Dst :=
  if x.toNat < 64 then some (.s (x.extractLsb' 0 6))
  else if x.toNat < 72 then some (.q (x.extractLsb' 0 3))
  else if x.toNat = 126 then some .last
  else none

/-- The specifier of a source (R55). -/
def Src.toBits : Src → BitVec 7
  | .s n => 0#1 ++ n
  | .q n => 8#4 ++ n
  | .a n => BitVec.ofNat 7 (72 + n.val)
  | .i n => 20#5 ++ n
  | .c n => BitVec.ofNat 7 (84 + n.toNat)
  | .last => 126#7

/-- The specifier of a destination (R55). -/
def Dst.toBits : Dst → BitVec 7
  | .s n => 0#1 ++ n
  | .q n => 8#4 ++ n
  | .last => 126#7

/-- Reads a source operand or refuses it as BAD_OPERAND (R56). -/
def srcOf (x : BitVec 7) (k : Src → Except DecodeFault Instr) : Except DecodeFault Instr :=
  match Src.ofBits x with
  | some o => k o
  | none => .error .badOperand

/-- Reads a destination operand or refuses it as BAD_OPERAND (R56). -/
def dstOf (x : BitVec 7) (k : Dst → Except DecodeFault Instr) : Except DecodeFault Instr :=
  match Dst.ofBits x with
  | some o => k o
  | none => .error .badOperand

/-- Decodes the Scalar majors (R61, R62). -/
def decodeScalar (w : BitVec 32) : Except DecodeFault Instr :=
  match (seg w 1 7).toNat with
  | 0x00 => dstOf (seg w 8 7) fun d =>
    srcOf (seg w 15 7) fun a =>
    srcOf (seg w 22 7) fun b =>
    .ok (.add d a b (seg w 29 3))
  | 0x01 => dstOf (seg w 8 7) fun d =>
    srcOf (seg w 15 7) fun a =>
    srcOf (seg w 22 7) fun b =>
    .ok (.sub d a b (seg w 29 3))
  | 0x02 => dstOf (seg w 8 7) fun d =>
    srcOf (seg w 15 7) fun a =>
    srcOf (seg w 22 7) fun b =>
    .ok (.mul d a b (seg w 29 3))
  | 0x03 => dstOf (seg w 8 7) fun d =>
    srcOf (seg w 15 7) fun a =>
    srcOf (seg w 22 7) fun b =>
    .ok (.mulh d a b (seg w 29 3))
  | 0x04 => dstOf (seg w 8 7) fun d =>
    srcOf (seg w 15 7) fun a =>
    srcOf (seg w 22 7) fun b =>
    .ok (.div d a b (seg w 29 3))
  | 0x05 => dstOf (seg w 8 7) fun d =>
    srcOf (seg w 15 7) fun a =>
    srcOf (seg w 22 7) fun b =>
    .ok (.rem d a b (seg w 29 3))
  | 0x06 => dstOf (seg w 8 7) fun d =>
    srcOf (seg w 15 7) fun a =>
    srcOf (seg w 22 7) fun b =>
    .ok (.and d a b (seg w 29 3))
  | 0x07 => dstOf (seg w 8 7) fun d =>
    srcOf (seg w 15 7) fun a =>
    srcOf (seg w 22 7) fun b =>
    .ok (.or d a b (seg w 29 3))
  | 0x08 => dstOf (seg w 8 7) fun d =>
    srcOf (seg w 15 7) fun a =>
    srcOf (seg w 22 7) fun b =>
    .ok (.xor d a b (seg w 29 3))
  | 0x09 => dstOf (seg w 8 7) fun d =>
    srcOf (seg w 15 7) fun a =>
    srcOf (seg w 22 7) fun b =>
    .ok (.shl d a b (seg w 29 3))
  | 0x0A => dstOf (seg w 8 7) fun d =>
    srcOf (seg w 15 7) fun a =>
    srcOf (seg w 22 7) fun b =>
    .ok (.shr d a b (seg w 29 3))
  | 0x0B => dstOf (seg w 8 7) fun d =>
    srcOf (seg w 15 7) fun a =>
    srcOf (seg w 22 7) fun b =>
    .ok (.sar d a b (seg w 29 3))
  | 0x0C => dstOf (seg w 8 7) fun d =>
    srcOf (seg w 15 7) fun a =>
    srcOf (seg w 22 7) fun b =>
    .ok (.sel d a b (seg w 29 3))
  | 0x0D => dstOf (seg w 8 7) fun d =>
    srcOf (seg w 15 7) fun a =>
    srcOf (seg w 22 7) fun b =>
    .ok (.min d a b (seg w 29 3))
  | 0x0E => dstOf (seg w 8 7) fun d =>
    srcOf (seg w 15 7) fun a =>
    srcOf (seg w 22 7) fun b =>
    .ok (.max d a b (seg w 29 3))
  | 0x0F => match (seg w 11 4).toNat with
    | 0 => srcOf (seg w 15 7) fun a =>
      srcOf (seg w 22 7) fun b =>
      .ok (.cmpEq (seg w 8 3) a b (seg w 29 3))
    | 1 => srcOf (seg w 15 7) fun a =>
      srcOf (seg w 22 7) fun b =>
      .ok (.cmpNe (seg w 8 3) a b (seg w 29 3))
    | 2 => srcOf (seg w 15 7) fun a =>
      srcOf (seg w 22 7) fun b =>
      .ok (.cmpLt (seg w 8 3) a b (seg w 29 3))
    | 3 => srcOf (seg w 15 7) fun a =>
      srcOf (seg w 22 7) fun b =>
      .ok (.cmpGe (seg w 8 3) a b (seg w 29 3))
    | 4 => srcOf (seg w 15 7) fun a =>
      srcOf (seg w 22 7) fun b =>
      .ok (.cmpLe (seg w 8 3) a b (seg w 29 3))
    | 5 => srcOf (seg w 15 7) fun a =>
      srcOf (seg w 22 7) fun b =>
      .ok (.cmpGt (seg w 8 3) a b (seg w 29 3))
    | 6 => srcOf (seg w 15 7) fun a =>
      srcOf (seg w 22 7) fun b =>
      .ok (.cmpLtn (seg w 8 3) a b (seg w 29 3))
    | 7 => srcOf (seg w 15 7) fun a =>
      srcOf (seg w 22 7) fun b =>
      .ok (.cmpGen (seg w 8 3) a b (seg w 29 3))
    | 8 => srcOf (seg w 15 7) fun a =>
      srcOf (seg w 22 7) fun b =>
      .ok (.cmpLen (seg w 8 3) a b (seg w 29 3))
    | 9 => srcOf (seg w 15 7) fun a =>
      srcOf (seg w 22 7) fun b =>
      .ok (.cmpGtn (seg w 8 3) a b (seg w 29 3))
    | 10 => srcOf (seg w 15 7) fun a =>
      srcOf (seg w 22 7) fun b =>
      .ok (.cmpAny (seg w 8 3) a b (seg w 29 3))
    | 11 => srcOf (seg w 15 7) fun a =>
      srcOf (seg w 22 7) fun b =>
      .ok (.cmpNone (seg w 8 3) a b (seg w 29 3))
    | 12 => srcOf (seg w 15 7) fun a =>
      srcOf (seg w 22 7) fun b =>
      .ok (.cmpAll (seg w 8 3) a b (seg w 29 3))
    | 13 => srcOf (seg w 15 7) fun a =>
      srcOf (seg w 22 7) fun b =>
      .ok (.cmpNall (seg w 8 3) a b (seg w 29 3))
    | 14 => srcOf (seg w 15 7) fun a =>
      srcOf (seg w 22 7) fun b =>
      .ok (.cmpBit (seg w 8 3) a b (seg w 29 3))
    | _ => srcOf (seg w 15 7) fun a =>
      srcOf (seg w 22 7) fun b =>
      .ok (.cmpNbit (seg w 8 3) a b (seg w 29 3))
  | 0x10 => dstOf (seg w 8 7) fun d =>
    srcOf (seg w 15 7) fun a =>
    .ok (.addi d a (seg w 22 10))
  | 0x11 => match (seg w 29 3).toNat with
    | 0 => dstOf (seg w 8 7) fun d =>
      srcOf (seg w 15 7) fun a =>
      .ok (.logiAnd d a (seg w 22 7))
    | 1 => dstOf (seg w 8 7) fun d =>
      srcOf (seg w 15 7) fun a =>
      .ok (.logiOr d a (seg w 22 7))
    | 2 => dstOf (seg w 8 7) fun d =>
      srcOf (seg w 15 7) fun a =>
      .ok (.logiXor d a (seg w 22 7))
    | 3 => dstOf (seg w 8 7) fun d =>
      srcOf (seg w 15 7) fun a =>
      srcOf (seg w 22 7) fun v =>
      .ok (.logiAndn d a v)
    | 4 => dstOf (seg w 8 7) fun d =>
      srcOf (seg w 15 7) fun a =>
      srcOf (seg w 22 7) fun v =>
      .ok (.logiOrn d a v)
    | 5 => dstOf (seg w 8 7) fun d =>
      srcOf (seg w 15 7) fun a =>
      srcOf (seg w 22 7) fun v =>
      .ok (.logiXnor d a v)
    | _ => .error .undefFunc
  | 0x12 => match (seg w 29 3).toNat with
    | 0 => onlyIf (seg w 28 1 = 0) .reservedField <|
      dstOf (seg w 8 7) fun d =>
      srcOf (seg w 15 7) fun a =>
      .ok (.shiShl d a (seg w 22 6))
    | 1 => onlyIf (seg w 28 1 = 0) .reservedField <|
      dstOf (seg w 8 7) fun d =>
      srcOf (seg w 15 7) fun a =>
      .ok (.shiShr d a (seg w 22 6))
    | 2 => onlyIf (seg w 28 1 = 0) .reservedField <|
      dstOf (seg w 8 7) fun d =>
      srcOf (seg w 15 7) fun a =>
      .ok (.shiSar d a (seg w 22 6))
    | 3 => onlyIf (seg w 28 1 = 0) .reservedField <|
      dstOf (seg w 8 7) fun d =>
      srcOf (seg w 15 7) fun a =>
      .ok (.shiRol d a (seg w 22 6))
    | 4 => onlyIf (seg w 28 1 = 0) .reservedField <|
      dstOf (seg w 8 7) fun d =>
      srcOf (seg w 15 7) fun a =>
      .ok (.shiRor d a (seg w 22 6))
    | _ => .error .undefFunc
  | 0x13 => dstOf (seg w 8 7) fun d =>
    .ok (.lim d (seg w 15 17))
  | 0x14 => match (seg w 29 3).toNat with
    | 0 => dstOf (seg w 8 7) fun d =>
      srcOf (seg w 15 7) fun a =>
      srcOf (seg w 22 7) fun v =>
      .ok (.bextU d a v)
    | 1 => dstOf (seg w 8 7) fun d =>
      srcOf (seg w 15 7) fun a =>
      srcOf (seg w 22 7) fun v =>
      .ok (.bextS d a v)
    | 2 => dstOf (seg w 8 7) fun d =>
      srcOf (seg w 15 7) fun a =>
      srcOf (seg w 22 7) fun v =>
      .ok (.bextI8 d a v)
    | 3 => dstOf (seg w 8 7) fun d =>
      srcOf (seg w 15 7) fun a =>
      srcOf (seg w 22 7) fun v =>
      .ok (.bextN8 d a v)
    | 4 => dstOf (seg w 8 7) fun d =>
      srcOf (seg w 15 7) fun a =>
      srcOf (seg w 22 7) fun v =>
      .ok (.bextI16 d a v)
    | 5 => dstOf (seg w 8 7) fun d =>
      srcOf (seg w 15 7) fun a =>
      srcOf (seg w 22 7) fun v =>
      .ok (.bextN16 d a v)
    | 6 => dstOf (seg w 8 7) fun d =>
      srcOf (seg w 15 7) fun a =>
      srcOf (seg w 22 7) fun v =>
      .ok (.bextI32 d a v)
    | _ => dstOf (seg w 8 7) fun d =>
      srcOf (seg w 15 7) fun a =>
      srcOf (seg w 22 7) fun v =>
      .ok (.bextN32 d a v)
  | 0x15 => match (seg w 29 3).toNat with
    | 0 => dstOf (seg w 8 7) fun d =>
      srcOf (seg w 15 7) fun a =>
      srcOf (seg w 22 7) fun v =>
      .ok (.binsIns d a v)
    | 1 => dstOf (seg w 8 7) fun d =>
      srcOf (seg w 15 7) fun a =>
      srcOf (seg w 22 7) fun v =>
      .ok (.binsB8 d a v)
    | 2 => dstOf (seg w 8 7) fun d =>
      srcOf (seg w 15 7) fun a =>
      srcOf (seg w 22 7) fun v =>
      .ok (.binsB16 d a v)
    | 3 => dstOf (seg w 8 7) fun d =>
      srcOf (seg w 15 7) fun a =>
      srcOf (seg w 22 7) fun v =>
      .ok (.binsB32 d a v)
    | _ => .error .undefFunc
  | 0x16 => dstOf (seg w 8 7) fun d =>
    srcOf (seg w 15 7) fun a =>
    srcOf (seg w 22 7) fun b =>
    .ok (.fsh d a b (seg w 29 3))
  | 0x17 => match (seg w 29 3).toNat with
    | 0 => onlyIf (seg w 22 7 = 0) .reservedField <|
      dstOf (seg w 8 7) fun d =>
      srcOf (seg w 15 7) fun a =>
      .ok (.bcntPop d a)
    | 1 => onlyIf (seg w 22 7 = 0) .reservedField <|
      dstOf (seg w 8 7) fun d =>
      srcOf (seg w 15 7) fun a =>
      .ok (.bcntClz d a)
    | 2 => onlyIf (seg w 22 7 = 0) .reservedField <|
      dstOf (seg w 8 7) fun d =>
      srcOf (seg w 15 7) fun a =>
      .ok (.bcntCtz d a)
    | 3 => onlyIf (seg w 22 7 = 0) .reservedField <|
      dstOf (seg w 8 7) fun d =>
      srcOf (seg w 15 7) fun a =>
      .ok (.bcntClo d a)
    | 4 => onlyIf (seg w 22 7 = 0) .reservedField <|
      dstOf (seg w 8 7) fun d =>
      srcOf (seg w 15 7) fun a =>
      .ok (.bcntCto d a)
    | 5 => onlyIf (seg w 22 7 = 0) .reservedField <|
      dstOf (seg w 8 7) fun d =>
      srcOf (seg w 15 7) fun a =>
      .ok (.bcntRev d a)
    | 6 => onlyIf (seg w 22 7 = 0) .reservedField <|
      dstOf (seg w 8 7) fun d =>
      srcOf (seg w 15 7) fun a =>
      .ok (.bcntBsw d a)
    | _ => .error .undefFunc
  | _ => .error .undefOp

/-- Decodes the Control majors (R61, R62). -/
def decodeControl (w : BitVec 32) : Except DecodeFault Instr :=
  match (seg w 1 7).toNat with
  | 0x18 => match (seg w 11 1).toNat with
    | 0 => .ok (.brT (seg w 8 3) (seg w 12 20))
    | _ => .ok (.brF (seg w 8 3) (seg w 12 20))
  | 0x19 => .ok (.j (seg w 8 24))
  | 0x1A => .ok (.jl (seg w 8 24))
  | 0x1B => dstOf (seg w 8 7) fun d =>
    srcOf (seg w 15 7) fun a =>
    .ok (.jr d a (seg w 22 10))
  | 0x1C => onlyIf (seg w 31 1 = 0) .undefFunc <|
    onlyIf (seg w 22 7 = 0) .reservedField <|
    onlyIf (seg w 8 7 = 0) .reservedField <|
    srcOf (seg w 15 7) fun a =>
    .ok (.lset (seg w 29 2) a)
  | 0x1D => onlyIf (seg w 11 1 = 0) .undefFunc <|
    onlyIf (seg w 10 1 = 0) .reservedField <|
    .ok (.lend (seg w 8 2) (seg w 12 20))
  | 0x1E => match (seg w 11 4).toNat with
    | 0 => onlyIf (seg w 25 4 = 0) .reservedField <|
      onlyIf (seg w 18 4 = 0) .reservedField <|
      .ok (.plogClr (seg w 8 3) (seg w 15 3) (seg w 22 3) (seg w 29 3))
    | 1 => onlyIf (seg w 25 4 = 0) .reservedField <|
      onlyIf (seg w 18 4 = 0) .reservedField <|
      .ok (.plogNor (seg w 8 3) (seg w 15 3) (seg w 22 3) (seg w 29 3))
    | 2 => onlyIf (seg w 25 4 = 0) .reservedField <|
      onlyIf (seg w 18 4 = 0) .reservedField <|
      .ok (.plogAndna (seg w 8 3) (seg w 15 3) (seg w 22 3) (seg w 29 3))
    | 3 => onlyIf (seg w 25 4 = 0) .reservedField <|
      onlyIf (seg w 18 4 = 0) .reservedField <|
      .ok (.plogNota (seg w 8 3) (seg w 15 3) (seg w 22 3) (seg w 29 3))
    | 4 => onlyIf (seg w 25 4 = 0) .reservedField <|
      onlyIf (seg w 18 4 = 0) .reservedField <|
      .ok (.plogAndnb (seg w 8 3) (seg w 15 3) (seg w 22 3) (seg w 29 3))
    | 5 => onlyIf (seg w 25 4 = 0) .reservedField <|
      onlyIf (seg w 18 4 = 0) .reservedField <|
      .ok (.plogNotb (seg w 8 3) (seg w 15 3) (seg w 22 3) (seg w 29 3))
    | 6 => onlyIf (seg w 25 4 = 0) .reservedField <|
      onlyIf (seg w 18 4 = 0) .reservedField <|
      .ok (.plogXor (seg w 8 3) (seg w 15 3) (seg w 22 3) (seg w 29 3))
    | 7 => onlyIf (seg w 25 4 = 0) .reservedField <|
      onlyIf (seg w 18 4 = 0) .reservedField <|
      .ok (.plogNand (seg w 8 3) (seg w 15 3) (seg w 22 3) (seg w 29 3))
    | 8 => onlyIf (seg w 25 4 = 0) .reservedField <|
      onlyIf (seg w 18 4 = 0) .reservedField <|
      .ok (.plogAnd (seg w 8 3) (seg w 15 3) (seg w 22 3) (seg w 29 3))
    | 9 => onlyIf (seg w 25 4 = 0) .reservedField <|
      onlyIf (seg w 18 4 = 0) .reservedField <|
      .ok (.plogXnor (seg w 8 3) (seg w 15 3) (seg w 22 3) (seg w 29 3))
    | 10 => onlyIf (seg w 25 4 = 0) .reservedField <|
      onlyIf (seg w 18 4 = 0) .reservedField <|
      .ok (.plogMovb (seg w 8 3) (seg w 15 3) (seg w 22 3) (seg w 29 3))
    | 11 => onlyIf (seg w 25 4 = 0) .reservedField <|
      onlyIf (seg w 18 4 = 0) .reservedField <|
      .ok (.plogOrna (seg w 8 3) (seg w 15 3) (seg w 22 3) (seg w 29 3))
    | 12 => onlyIf (seg w 25 4 = 0) .reservedField <|
      onlyIf (seg w 18 4 = 0) .reservedField <|
      .ok (.plogMova (seg w 8 3) (seg w 15 3) (seg w 22 3) (seg w 29 3))
    | 13 => onlyIf (seg w 25 4 = 0) .reservedField <|
      onlyIf (seg w 18 4 = 0) .reservedField <|
      .ok (.plogOrnb (seg w 8 3) (seg w 15 3) (seg w 22 3) (seg w 29 3))
    | 14 => onlyIf (seg w 25 4 = 0) .reservedField <|
      onlyIf (seg w 18 4 = 0) .reservedField <|
      .ok (.plogOr (seg w 8 3) (seg w 15 3) (seg w 22 3) (seg w 29 3))
    | _ => onlyIf (seg w 25 4 = 0) .reservedField <|
      onlyIf (seg w 18 4 = 0) .reservedField <|
      .ok (.plogSet (seg w 8 3) (seg w 15 3) (seg w 22 3) (seg w 29 3))
  | 0x1F => onlyIf (seg w 30 2 = 0) .reservedField <|
    onlyIf (seg w 8 7 = 0) .reservedField <|
    srcOf (seg w 15 7) fun a =>
    .ok (.cset a (seg w 22 8))
  | 0x20 => onlyIf (seg w 31 1 = 0) .undefFunc <|
    dstOf (seg w 8 7) fun d =>
    srcOf (seg w 15 7) fun a =>
    srcOf (seg w 22 7) fun v =>
    .ok (.adr (seg w 29 2) d a v)
  | 0x21 => onlyIf (seg w 22 7 = 0) .reservedField <|
    onlyIf (seg w 15 7 = 0) .reservedField <|
    onlyIf (seg w 8 7 = 0) .reservedField <|
    .ok (.hret (seg w 29 3))
  | 0x22 => .ok (.hint (seg w 8 7) (seg w 15 17))
  | 0x23 => match (seg w 27 3).toNat with
    | 0 => onlyIf (seg w 30 2 = 0) .reservedField <|
      onlyIf (seg w 15 12 = 0) .reservedField <|
      dstOf (seg w 8 7) fun d =>
      .ok (.getcPc d)
    | 1 => onlyIf (seg w 30 2 = 0) .reservedField <|
      onlyIf (seg w 15 12 = 0) .reservedField <|
      dstOf (seg w 8 7) fun d =>
      .ok (.getcHdr0 d)
    | 2 => onlyIf (seg w 30 2 = 0) .reservedField <|
      onlyIf (seg w 15 12 = 0) .reservedField <|
      dstOf (seg w 8 7) fun d =>
      .ok (.getcHdr1 d)
    | 3 => onlyIf (seg w 30 2 = 0) .reservedField <|
      onlyIf (seg w 15 12 = 0) .reservedField <|
      dstOf (seg w 8 7) fun d =>
      .ok (.getcPrd d)
    | _ => .error .undefFunc
  | _ => .error .undefOp

/-- Decodes the Memory majors (R61, R62). -/
def decodeMemory (w : BitVec 32) : Except DecodeFault Instr :=
  match (seg w 1 7).toNat with
  | 0x24 => dstOf (seg w 8 7) fun d =>
    srcOf (seg w 15 7) fun b =>
    .ok (.ld d b (seg w 22 2) (seg w 24 5) (seg w 29 3))
  | 0x25 => dstOf (seg w 8 7) fun d =>
    srcOf (seg w 15 7) fun b =>
    .ok (.ldn d b (seg w 22 2) (seg w 24 5) (seg w 29 3))
  | 0x26 => srcOf (seg w 8 7) fun d =>
    srcOf (seg w 15 7) fun b =>
    .ok (.st d b (seg w 22 2) (seg w 24 5) (seg w 29 3))
  | 0x27 => onlyIf (seg w 22 2 = 0) .reservedField <|
    onlyIf (seg w 13 2 = 0) .reservedField <|
    srcOf (seg w 15 7) fun b =>
    .ok (.ldh (seg w 8 5) b (seg w 24 5) (seg w 29 3))
  | 0x28 => onlyIf (seg w 22 2 = 0) .reservedField <|
    onlyIf (seg w 13 2 = 0) .reservedField <|
    srcOf (seg w 15 7) fun b =>
    .ok (.sth (seg w 8 5) b (seg w 24 5) (seg w 29 3))
  | 0x29 => match (seg w 29 3).toNat with
    | 0 => dstOf (seg w 8 7) fun d =>
      srcOf (seg w 15 7) fun a =>
      srcOf (seg w 22 7) fun v =>
      .ok (.amoAdd d a v)
    | 1 => dstOf (seg w 8 7) fun d =>
      srcOf (seg w 15 7) fun a =>
      srcOf (seg w 22 7) fun v =>
      .ok (.amoAnd d a v)
    | 2 => dstOf (seg w 8 7) fun d =>
      srcOf (seg w 15 7) fun a =>
      srcOf (seg w 22 7) fun v =>
      .ok (.amoOr d a v)
    | 3 => dstOf (seg w 8 7) fun d =>
      srcOf (seg w 15 7) fun a =>
      srcOf (seg w 22 7) fun v =>
      .ok (.amoXor d a v)
    | 4 => dstOf (seg w 8 7) fun d =>
      srcOf (seg w 15 7) fun a =>
      srcOf (seg w 22 7) fun v =>
      .ok (.amoMin d a v)
    | 5 => dstOf (seg w 8 7) fun d =>
      srcOf (seg w 15 7) fun a =>
      srcOf (seg w 22 7) fun v =>
      .ok (.amoMax d a v)
    | 6 => dstOf (seg w 8 7) fun d =>
      srcOf (seg w 15 7) fun a =>
      srcOf (seg w 22 7) fun v =>
      .ok (.amoSwp d a v)
    | _ => dstOf (seg w 8 7) fun d =>
      srcOf (seg w 15 7) fun a =>
      srcOf (seg w 22 7) fun v =>
      onlyIf (isPair v) .badOperand <|
      .ok (.amoA96 d a v)
  | 0x2A => match (seg w 29 3).toNat with
    | 0 => dstOf (seg w 8 7) fun d =>
      srcOf (seg w 15 7) fun a =>
      srcOf (seg w 22 7) fun v =>
      .ok (.casW d a v)
    | 1 => dstOf (seg w 8 7) fun d =>
      srcOf (seg w 15 7) fun a =>
      srcOf (seg w 22 7) fun v =>
      .ok (.casD d a v)
    | _ => .error .undefFunc
  | 0x2B => onlyIf (seg w 29 3 = 0) .undefFunc <|
    dstOf (seg w 8 7) fun d =>
    srcOf (seg w 15 7) fun a =>
    srcOf (seg w 22 7) fun v =>
    .ok (.qclaim d a v)
  | 0x2C => match (seg w 29 3).toNat with
    | 0 => onlyIf (seg w 22 3 ≠ 7) .undefFunc <|
      onlyIf (seg w 25 4 = 0) .reservedField <|
      onlyIf (seg w 15 7 = 0) .reservedField <|
      onlyIf (seg w 8 7 = 0) .reservedField <|
      .ok (.fenceAcq (seg w 22 3))
    | 1 => onlyIf (seg w 22 3 ≠ 7) .undefFunc <|
      onlyIf (seg w 25 4 = 0) .reservedField <|
      onlyIf (seg w 15 7 = 0) .reservedField <|
      onlyIf (seg w 8 7 = 0) .reservedField <|
      .ok (.fenceRel (seg w 22 3))
    | 2 => onlyIf (seg w 22 3 ≠ 7) .undefFunc <|
      onlyIf (seg w 25 4 = 0) .reservedField <|
      onlyIf (seg w 15 7 = 0) .reservedField <|
      onlyIf (seg w 8 7 = 0) .reservedField <|
      .ok (.fenceFull (seg w 22 3))
    | _ => .error .undefFunc
  | 0x2D => match (seg w 29 3).toNat with
    | 0 => dstOf (seg w 8 7) fun d =>
      srcOf (seg w 15 7) fun a =>
      srcOf (seg w 22 7) fun v =>
      .ok (.waddrEq d a v)
    | 1 => dstOf (seg w 8 7) fun d =>
      srcOf (seg w 15 7) fun a =>
      srcOf (seg w 22 7) fun v =>
      .ok (.waddrNe d a v)
    | 2 => dstOf (seg w 8 7) fun d =>
      srcOf (seg w 15 7) fun a =>
      srcOf (seg w 22 7) fun v =>
      .ok (.waddrGes d a v)
    | 3 => dstOf (seg w 8 7) fun d =>
      srcOf (seg w 15 7) fun a =>
      srcOf (seg w 22 7) fun v =>
      .ok (.waddrAny d a v)
    | _ => .error .undefFunc
  | 0x2E => .ok (.wbead (seg w 8 6) (seg w 14 6) (seg w 20 6) (seg w 26 6))
  | 0x2F => onlyIf (seg w 28 1 = 0) .reservedField <|
    dstOf (seg w 8 7) fun d =>
    srcOf (seg w 15 7) fun b =>
    .ok (.pwld d b (seg w 22 2) (seg w 27 1) (seg w 24 3) (seg w 29 3))
  | 0x30 => onlyIf (seg w 27 2 = 0) .reservedField <|
    dstOf (seg w 8 7) fun d =>
    srcOf (seg w 15 7) fun b =>
    .ok (.ldx d b (seg w 22 2) (seg w 26 1) (seg w 24 2) (seg w 29 3))
  | 0x31 => onlyIf (seg w 26 3 = 0) .reservedField <|
    srcOf (seg w 8 7) fun d =>
    srcOf (seg w 15 7) fun b =>
    .ok (.stx d b (seg w 22 2) (seg w 24 2) (seg w 29 3))
  | _ => .error .undefOp

/-- Decodes the Actors majors (R61, R62). -/
def decodeActors (w : BitVec 32) : Except DecodeFault Instr :=
  match (seg w 1 7).toNat with
  | 0x32 => srcOf (seg w 8 7) fun a =>
    srcOf (seg w 15 7) fun b =>
    .ok (.send a b (seg w 22 8) (seg w 30 2))
  | 0x33 => srcOf (seg w 8 7) fun a =>
    srcOf (seg w 15 7) fun b =>
    .ok (.sendr a b (seg w 22 8) (seg w 30 2))
  | 0x34 => match (seg w 29 3).toNat with
    | 0 => dstOf (seg w 8 7) fun d =>
      srcOf (seg w 15 7) fun a =>
      srcOf (seg w 22 7) fun v =>
      .ok (.mbcfgSet d a v)
    | 1 => onlyIf (seg w 15 7 = 0) .reservedField <|
      dstOf (seg w 8 7) fun d =>
      srcOf (seg w 22 7) fun v =>
      .ok (.mbcfgOff d v)
    | 2 => dstOf (seg w 8 7) fun d =>
      srcOf (seg w 15 7) fun a =>
      srcOf (seg w 22 7) fun v =>
      .ok (.mbcfgKey d a v)
    | 3 => onlyIf (seg w 15 7 = 0) .reservedField <|
      dstOf (seg w 8 7) fun d =>
      srcOf (seg w 22 7) fun v =>
      .ok (.mbcfgStat d v)
    | 4 => onlyIf (seg w 22 7 = 0) .reservedField <|
      onlyIf (seg w 15 7 = 0) .reservedField <|
      dstOf (seg w 8 7) fun d =>
      .ok (.mbcfgRcan d)
    | _ => .error .undefFunc
  | 0x35 => match (seg w 29 3).toNat with
    | 0 => onlyIf (seg w 22 7 = 0) .reservedField <|
      dstOf (seg w 8 7) fun d =>
      srcOf (seg w 15 7) fun a =>
      .ok (.actorNew d a)
    | 1 => onlyIf (seg w 22 7 = 0) .reservedField <|
      onlyIf (seg w 15 7 = 0) .reservedField <|
      onlyIf (seg w 8 7 = 0) .reservedField <|
      .ok (.actorExit)
    | 2 => onlyIf (seg w 22 7 = 0) .reservedField <|
      dstOf (seg w 8 7) fun d =>
      srcOf (seg w 15 7) fun a =>
      .ok (.actorKill d a)
    | _ => .error .undefFunc
  | 0x36 => onlyIf (seg w 29 3 = 0) .undefFunc <|
    dstOf (seg w 8 7) fun d =>
    srcOf (seg w 15 7) fun a =>
    srcOf (seg w 22 7) fun v =>
    .ok (.launch d a v)
  | 0x37 => match (seg w 29 3).toNat with
    | 0 => onlyIf (seg w 22 7 = 0) .reservedField <|
      dstOf (seg w 8 7) fun d =>
      srcOf (seg w 15 7) fun a =>
      .ok (.joinStat d a)
    | 1 => onlyIf (seg w 22 7 = 0) .reservedField <|
      dstOf (seg w 8 7) fun d =>
      srcOf (seg w 15 7) fun a =>
      .ok (.joinKill d a)
    | _ => .error .undefFunc
  | 0x38 => onlyIf (seg w 29 3 = 0) .undefFunc <|
    dstOf (seg w 8 7) fun d =>
    srcOf (seg w 15 7) fun a =>
    srcOf (seg w 22 7) fun v =>
    onlyIf (isPair v) .badOperand <|
    .ok (.wlapp d a v)
  | 0x39 => match (seg w 29 3).toNat with
    | 0 => onlyIf (seg w 15 7 = 0) .reservedField <|
      dstOf (seg w 8 7) fun d =>
      srcOf (seg w 22 7) fun v =>
      onlyIf (isPair v) .badOperand <|
      .ok (.wltakeCore d v)
    | 1 => onlyIf (seg w 15 7 = 0) .reservedField <|
      dstOf (seg w 8 7) fun d =>
      srcOf (seg w 22 7) fun v =>
      onlyIf (isPair v) .badOperand <|
      .ok (.wltakeQuad d v)
    | 2 => onlyIf (seg w 15 7 = 0) .reservedField <|
      dstOf (seg w 8 7) fun d =>
      srcOf (seg w 22 7) fun v =>
      onlyIf (isPair v) .badOperand <|
      .ok (.wltakeClus d v)
    | _ => .error .undefFunc
  | 0x3A => onlyIf (seg w 29 3 = 0) .undefFunc <|
    onlyIf (seg w 22 7 = 0) .reservedField <|
    dstOf (seg w 8 7) fun d =>
    srcOf (seg w 15 7) fun a =>
    .ok (.barr d a)
  | 0x3B => onlyIf (seg w 29 3 = 0) .undefFunc <|
    dstOf (seg w 8 7) fun d =>
    srcOf (seg w 15 7) fun a =>
    srcOf (seg w 22 7) fun v =>
    .ok (.bwait d a v)
  | 0x3C => onlyIf (scopeHasPool (seg w 29 3)) .undefFunc <|
    onlyIf (seg w 22 7 = 0) .reservedField <|
    dstOf (seg w 8 7) fun d =>
    srcOf (seg w 15 7) fun a =>
    .ok (.balloc (seg w 29 3) d a)
  | 0x3D => onlyIf (seg w 29 3 = 0) .undefFunc <|
    onlyIf (seg w 22 7 = 0) .reservedField <|
    dstOf (seg w 8 7) fun d =>
    srcOf (seg w 15 7) fun a =>
    .ok (.bfree d a)
  | 0x3E => match (seg w 29 3).toNat with
    | 0 => dstOf (seg w 8 7) fun d =>
      srcOf (seg w 15 7) fun a =>
      srcOf (seg w 22 7) fun v =>
      .ok (.quiesArm d a v)
    | 1 => dstOf (seg w 8 7) fun d =>
      srcOf (seg w 15 7) fun a =>
      srcOf (seg w 22 7) fun v =>
      .ok (.quiesDisarm d a v)
    | 2 => dstOf (seg w 8 7) fun d =>
      srcOf (seg w 15 7) fun a =>
      srcOf (seg w 22 7) fun v =>
      .ok (.quiesTest d a v)
    | _ => .error .undefFunc
  | 0x3F => match (seg w 29 3).toNat with
    | 0 => dstOf (seg w 8 7) fun d =>
      srcOf (seg w 15 7) fun a =>
      srcOf (seg w 22 7) fun v =>
      .ok (.rgsetRd d a v)
    | 1 => dstOf (seg w 8 7) fun d =>
      srcOf (seg w 15 7) fun a =>
      srcOf (seg w 22 7) fun v =>
      .ok (.rgsetWr d a v)
    | 2 => onlyIf (seg w 22 7 = 0) .reservedField <|
      dstOf (seg w 8 7) fun d =>
      srcOf (seg w 15 7) fun a =>
      .ok (.rgsetClr d a)
    | _ => .error .undefFunc
  | _ => .error .undefOp

/-- Decodes the Matrix majors (R61, R62). -/
def decodeMatrix (w : BitVec 32) : Except DecodeFault Instr :=
  match (seg w 1 7).toNat with
  | 0x40 => onlyIf (seg w 26 3 = 0) .undefFunc <|
    onlyIf (seg w 23 3 = 0) .undefFunc <|
    .ok (.mma (seg w 8 5) (seg w 13 5) (seg w 18 5) (seg w 29 3))
  | 0x41 => match (seg w 23 3).toNat with
    | 0 => onlyIf (seg w 26 3 = 0) .undefFunc <|
      onlyIf (seg w 18 5 = 0) .reservedField <|
      onlyIf (seg w 13 5 = 0) .reservedField <|
      .ok (.mzeroZero (seg w 8 5) (seg w 29 3))
    | 1 => onlyIf (seg w 26 3 = 0) .undefFunc <|
      onlyIf (seg w 18 5 = 0) .reservedField <|
      .ok (.mzeroLoad (seg w 8 5) (seg w 13 5) (seg w 29 3))
    | 2 => onlyIf (seg w 26 3 = 0) .undefFunc <|
      onlyIf (seg w 18 5 = 0) .reservedField <|
      .ok (.mzeroAdd (seg w 8 5) (seg w 13 5) (seg w 29 3))
    | 3 => onlyIf (seg w 26 3 = 0) .undefFunc <|
      onlyIf (seg w 18 5 = 0) .reservedField <|
      .ok (.mzeroStat (seg w 8 5) (seg w 13 5) (seg w 29 3))
    | _ => .error .undefFunc
  | 0x42 => match (seg w 23 3).toNat with
    | 0 => onlyIf (seg w 27 2 = 0) .undefFunc <|
      onlyIf (seg w 18 5 = 0) .reservedField <|
      .ok (.mcvtRne (seg w 8 5) (seg w 13 5) (seg w 26 1) (seg w 29 3))
    | 1 => onlyIf (seg w 27 2 = 0) .undefFunc <|
      onlyIf (seg w 18 5 = 0) .reservedField <|
      .ok (.mcvtRtz (seg w 8 5) (seg w 13 5) (seg w 26 1) (seg w 29 3))
    | 2 => onlyIf (seg w 27 2 = 0) .undefFunc <|
      onlyIf (seg w 18 5 = 0) .reservedField <|
      .ok (.mcvtRdn (seg w 8 5) (seg w 13 5) (seg w 26 1) (seg w 29 3))
    | 3 => onlyIf (seg w 27 2 = 0) .undefFunc <|
      onlyIf (seg w 18 5 = 0) .reservedField <|
      .ok (.mcvtRup (seg w 8 5) (seg w 13 5) (seg w 26 1) (seg w 29 3))
    | 4 => onlyIf (seg w 27 2 = 0) .undefFunc <|
      onlyIf (seg w 18 5 = 0) .reservedField <|
      .ok (.mcvtSrk (seg w 8 5) (seg w 13 5) (seg w 26 1) (seg w 29 3))
    | _ => .error .undefFunc
  | 0x43 => onlyIf (seg w 26 3 = 0) .undefFunc <|
    onlyIf (seg w 23 3 = 0) .undefFunc <|
    .ok (.mresc (seg w 8 5) (seg w 13 5) (seg w 18 5) (seg w 29 3))
  | 0x44 => match (seg w 23 3).toNat with
    | 0 => onlyIf (seg w 26 3 = 0) .undefFunc <|
      onlyIf (seg w 18 5 = 0) .reservedField <|
      .ok (.mstatRd (seg w 8 5) (seg w 13 5) (seg w 29 3))
    | 1 => onlyIf (seg w 26 3 = 0) .undefFunc <|
      onlyIf (seg w 18 5 = 0) .reservedField <|
      .ok (.mstatRdclr (seg w 8 5) (seg w 13 5) (seg w 29 3))
    | _ => .error .undefFunc
  | 0x45 => onlyIf (seg w 26 3 = 0) .undefFunc <|
    onlyIf (seg w 23 3 = 0) .undefFunc <|
    onlyIf (seg w 18 5 = 0) .reservedField <|
    onlyIf (seg w 13 5 = 0) .reservedField <|
    .ok (.manch (seg w 8 5) (seg w 29 3))
  | 0x46 => onlyIf (seg w 26 3 = 0) .undefFunc <|
    onlyIf (seg w 23 3 = 0) .undefFunc <|
    onlyIf (seg w 18 5 = 0) .reservedField <|
    .ok (.mbput (seg w 8 5) (seg w 13 5) (seg w 29 3))
  | 0x47 => onlyIf (seg w 26 3 = 0) .undefFunc <|
    onlyIf (seg w 23 3 = 0) .undefFunc <|
    onlyIf (seg w 18 5 = 0) .reservedField <|
    onlyIf (seg w 13 5 = 0) .reservedField <|
    .ok (.mpost (seg w 8 5) (seg w 29 3))
  | _ => .error .undefOp

/-- Decodes the Vector majors (R61, R62). -/
def decodeVector (w : BitVec 32) : Except DecodeFault Instr :=
  match (seg w 1 7).toNat with
  | 0x48 => match (seg w 23 3).toNat with
    | 0 => .ok (.vmapAdd (seg w 8 5) (seg w 13 5) (seg w 18 5) (seg w 26 3) (seg w 29 3))
    | 1 => .ok (.vmapSub (seg w 8 5) (seg w 13 5) (seg w 18 5) (seg w 26 3) (seg w 29 3))
    | 2 => .ok (.vmapMul (seg w 8 5) (seg w 13 5) (seg w 18 5) (seg w 26 3) (seg w 29 3))
    | 3 => .ok (.vmapMin (seg w 8 5) (seg w 13 5) (seg w 18 5) (seg w 26 3) (seg w 29 3))
    | 4 => .ok (.vmapMax (seg w 8 5) (seg w 13 5) (seg w 18 5) (seg w 26 3) (seg w 29 3))
    | 5 => onlyIf (seg w 18 5 = 0) .reservedField <|
      .ok (.vmapAbs (seg w 8 5) (seg w 13 5) (seg w 26 3) (seg w 29 3))
    | 6 => onlyIf (seg w 18 5 = 0) .reservedField <|
      .ok (.vmapNeg (seg w 8 5) (seg w 13 5) (seg w 26 3) (seg w 29 3))
    | _ => .error .undefFunc
  | 0x49 => match (seg w 23 3).toNat with
    | 0 => .ok (.vfmaFma (seg w 8 5) (seg w 13 5) (seg w 18 5) (seg w 26 3) (seg w 29 3))
    | 1 => .ok (.vfmaFms (seg w 8 5) (seg w 13 5) (seg w 18 5) (seg w 26 3) (seg w 29 3))
    | 2 => .ok (.vfmaFnma (seg w 8 5) (seg w 13 5) (seg w 18 5) (seg w 26 3) (seg w 29 3))
    | 3 => .ok (.vfmaFnms (seg w 8 5) (seg w 13 5) (seg w 18 5) (seg w 26 3) (seg w 29 3))
    | _ => .error .undefFunc
  | 0x4A => match (seg w 23 3).toNat with
    | 0 => onlyIf (seg w 26 3 = 0) .undefFunc <|
      .ok (.vcmpEq (seg w 8 5) (seg w 13 5) (seg w 18 5) (seg w 29 3))
    | 1 => onlyIf (seg w 26 3 = 0) .undefFunc <|
      .ok (.vcmpNe (seg w 8 5) (seg w 13 5) (seg w 18 5) (seg w 29 3))
    | 2 => onlyIf (seg w 26 3 = 0) .undefFunc <|
      .ok (.vcmpLt (seg w 8 5) (seg w 13 5) (seg w 18 5) (seg w 29 3))
    | 3 => onlyIf (seg w 26 3 = 0) .undefFunc <|
      .ok (.vcmpLe (seg w 8 5) (seg w 13 5) (seg w 18 5) (seg w 29 3))
    | 4 => onlyIf (seg w 26 3 = 0) .undefFunc <|
      .ok (.vcmpGt (seg w 8 5) (seg w 13 5) (seg w 18 5) (seg w 29 3))
    | 5 => onlyIf (seg w 26 3 = 0) .undefFunc <|
      .ok (.vcmpGe (seg w 8 5) (seg w 13 5) (seg w 18 5) (seg w 29 3))
    | 6 => onlyIf (seg w 26 3 = 0) .undefFunc <|
      .ok (.vcmpUn (seg w 8 5) (seg w 13 5) (seg w 18 5) (seg w 29 3))
    | _ => onlyIf (seg w 26 3 = 0) .undefFunc <|
      .ok (.vcmpOrd (seg w 8 5) (seg w 13 5) (seg w 18 5) (seg w 29 3))
  | 0x4B => match (seg w 23 3).toNat with
    | 0 => onlyIf (seg w 26 3 = 0) .undefFunc <|
      .ok (.vlogAnd (seg w 8 5) (seg w 13 5) (seg w 18 5) (seg w 29 3))
    | 1 => onlyIf (seg w 26 3 = 0) .undefFunc <|
      .ok (.vlogOr (seg w 8 5) (seg w 13 5) (seg w 18 5) (seg w 29 3))
    | 2 => onlyIf (seg w 26 3 = 0) .undefFunc <|
      .ok (.vlogXor (seg w 8 5) (seg w 13 5) (seg w 18 5) (seg w 29 3))
    | 3 => onlyIf (seg w 26 3 = 0) .undefFunc <|
      .ok (.vlogAndn (seg w 8 5) (seg w 13 5) (seg w 18 5) (seg w 29 3))
    | 4 => onlyIf (seg w 26 3 = 0) .undefFunc <|
      onlyIf (seg w 18 5 = 0) .reservedField <|
      .ok (.vlogNot (seg w 8 5) (seg w 13 5) (seg w 29 3))
    | 5 => onlyIf (seg w 26 3 = 0) .undefFunc <|
      onlyIf (seg w 18 5 = 0) .reservedField <|
      .ok (.vlogMnot (seg w 8 5) (seg w 13 5) (seg w 29 3))
    | _ => .error .undefFunc
  | 0x4C => match (seg w 23 3).toNat with
    | 0 => onlyIf (seg w 26 3 = 0) .undefFunc <|
      .ok (.vshfShl (seg w 8 5) (seg w 13 5) (seg w 18 5) (seg w 29 3))
    | 1 => onlyIf (seg w 26 3 = 0) .undefFunc <|
      .ok (.vshfShr (seg w 8 5) (seg w 13 5) (seg w 18 5) (seg w 29 3))
    | 2 => onlyIf (seg w 26 3 = 0) .undefFunc <|
      .ok (.vshfSar (seg w 8 5) (seg w 13 5) (seg w 18 5) (seg w 29 3))
    | 3 => onlyIf (seg w 26 3 = 0) .undefFunc <|
      .ok (.vshfRshr (seg w 8 5) (seg w 13 5) (seg w 18 5) (seg w 29 3))
    | _ => .error .undefFunc
  | 0x4D => match (seg w 23 3).toNat with
    | 0 => onlyIf (seg w 18 5 = 0) .reservedField <|
      .ok (.vredSum (seg w 8 5) (seg w 13 5) (seg w 26 3) (seg w 29 3))
    | 1 => onlyIf (seg w 18 5 = 0) .reservedField <|
      .ok (.vredMax (seg w 8 5) (seg w 13 5) (seg w 26 3) (seg w 29 3))
    | 2 => onlyIf (seg w 18 5 = 0) .reservedField <|
      .ok (.vredMin (seg w 8 5) (seg w 13 5) (seg w 26 3) (seg w 29 3))
    | 3 => onlyIf (seg w 18 5 = 0) .reservedField <|
      .ok (.vredAmax (seg w 8 5) (seg w 13 5) (seg w 26 3) (seg w 29 3))
    | 4 => onlyIf (seg w 26 3 = 0) .undefFunc <|
      onlyIf (seg w 18 5 = 0) .reservedField <|
      .ok (.vredImax (seg w 8 5) (seg w 13 5) (seg w 29 3))
    | 5 => onlyIf (seg w 26 3 = 0) .undefFunc <|
      onlyIf (seg w 18 5 = 0) .reservedField <|
      .ok (.vredImin (seg w 8 5) (seg w 13 5) (seg w 29 3))
    | _ => .error .undefFunc
  | 0x4E => match (seg w 23 3).toNat with
    | 0 => onlyIf (seg w 18 5 = 0) .reservedField <|
      .ok (.vxfExp2 (seg w 8 5) (seg w 13 5) (seg w 26 3) (seg w 29 3))
    | 1 => onlyIf (seg w 18 5 = 0) .reservedField <|
      .ok (.vxfLog2 (seg w 8 5) (seg w 13 5) (seg w 26 3) (seg w 29 3))
    | 2 => onlyIf (seg w 18 5 = 0) .reservedField <|
      .ok (.vxfRcp (seg w 8 5) (seg w 13 5) (seg w 26 3) (seg w 29 3))
    | 3 => onlyIf (seg w 18 5 = 0) .reservedField <|
      .ok (.vxfRsqrt (seg w 8 5) (seg w 13 5) (seg w 26 3) (seg w 29 3))
    | 4 => onlyIf (seg w 18 5 = 0) .reservedField <|
      .ok (.vxfSin (seg w 8 5) (seg w 13 5) (seg w 26 3) (seg w 29 3))
    | 5 => onlyIf (seg w 18 5 = 0) .reservedField <|
      .ok (.vxfCos (seg w 8 5) (seg w 13 5) (seg w 26 3) (seg w 29 3))
    | _ => .error .undefFunc
  | 0x4F => match (seg w 23 3).toNat with
    | 0 => onlyIf (seg w 27 2 = 0) .undefFunc <|
      onlyIf (seg w 18 5 = 0) .reservedField <|
      .ok (.vcvtRne (seg w 8 5) (seg w 13 5) (seg w 26 1) (seg w 29 3))
    | 1 => onlyIf (seg w 27 2 = 0) .undefFunc <|
      onlyIf (seg w 18 5 = 0) .reservedField <|
      .ok (.vcvtRtz (seg w 8 5) (seg w 13 5) (seg w 26 1) (seg w 29 3))
    | 2 => onlyIf (seg w 27 2 = 0) .undefFunc <|
      onlyIf (seg w 18 5 = 0) .reservedField <|
      .ok (.vcvtRdn (seg w 8 5) (seg w 13 5) (seg w 26 1) (seg w 29 3))
    | 3 => onlyIf (seg w 27 2 = 0) .undefFunc <|
      onlyIf (seg w 18 5 = 0) .reservedField <|
      .ok (.vcvtRup (seg w 8 5) (seg w 13 5) (seg w 26 1) (seg w 29 3))
    | 4 => onlyIf (seg w 27 2 = 0) .undefFunc <|
      onlyIf (seg w 18 5 = 0) .reservedField <|
      .ok (.vcvtSrk (seg w 8 5) (seg w 13 5) (seg w 26 1) (seg w 29 3))
    | _ => .error .undefFunc
  | 0x50 => match (seg w 23 3).toNat with
    | 0 => onlyIf (seg w 26 3 = 0) .undefFunc <|
      .ok (.vselSel (seg w 8 5) (seg w 13 5) (seg w 18 5) (seg w 29 3))
    | 1 => onlyIf (seg w 26 3 = 0) .undefFunc <|
      .ok (.vselGath (seg w 8 5) (seg w 13 5) (seg w 18 5) (seg w 29 3))
    | 2 => onlyIf (seg w 26 3 = 0) .undefFunc <|
      .ok (.vselRgath (seg w 8 5) (seg w 13 5) (seg w 18 5) (seg w 29 3))
    | 3 => onlyIf (seg w 26 3 = 0) .undefFunc <|
      .ok (.vselCmpr (seg w 8 5) (seg w 13 5) (seg w 18 5) (seg w 29 3))
    | _ => .error .undefFunc
  | 0x51 => match (seg w 23 3).toNat with
    | 0 => onlyIf (seg w 26 3 = 0) .undefFunc <|
      onlyIf (seg w 18 5 = 0) .reservedField <|
      .ok (.vpermTr (seg w 8 5) (seg w 13 5) (seg w 29 3))
    | 1 => onlyIf (seg w 26 3 = 0) .undefFunc <|
      onlyIf (seg w 18 5 = 0) .reservedField <|
      .ok (.vpermRev (seg w 8 5) (seg w 13 5) (seg w 29 3))
    | 2 => onlyIf (seg w 26 3 = 0) .undefFunc <|
      onlyIf (seg w 18 5 = 0) .reservedField <|
      .ok (.vpermZip (seg w 8 5) (seg w 13 5) (seg w 29 3))
    | 3 => onlyIf (seg w 26 3 = 0) .undefFunc <|
      onlyIf (seg w 18 5 = 0) .reservedField <|
      .ok (.vpermUnzip (seg w 8 5) (seg w 13 5) (seg w 29 3))
    | _ => .error .undefFunc
  | _ => .error .undefOp

/-- Decodes the Engines majors (R61, R62). -/
def decodeEngines (w : BitVec 32) : Except DecodeFault Instr :=
  match (seg w 1 7).toNat with
  | 0x52 => match (seg w 23 3).toNat with
    | 0 => onlyIf (seg w 28 1 = 0) .undefFunc <|
      onlyIf (seg w 18 5 = 0) .reservedField <|
      onlyIf (seg w 13 5 = 0) .reservedField <|
      .ok (.lpostCp (seg w 8 5) (seg w 26 2) (seg w 29 3))
    | 1 => onlyIf (seg w 28 1 = 0) .undefFunc <|
      onlyIf (seg w 18 5 = 0) .reservedField <|
      onlyIf (seg w 13 5 = 0) .reservedField <|
      .ok (.lpostPkt (seg w 8 5) (seg w 26 2) (seg w 29 3))
    | _ => .error .undefFunc
  | 0x53 => match (seg w 23 3).toNat with
    | 0 => onlyIf (seg w 28 1 = 0) .undefFunc <|
      onlyIf (seg w 18 5 = 0) .reservedField <|
      .ok (.lshapeElem (seg w 8 5) (seg w 13 5) (seg w 26 2) (seg w 29 3))
    | 1 => onlyIf (seg w 28 1 = 0) .undefFunc <|
      onlyIf (seg w 18 5 = 0) .reservedField <|
      .ok (.lshapeScale (seg w 8 5) (seg w 13 5) (seg w 26 2) (seg w 29 3))
    | _ => .error .undefFunc
  | 0x54 => match (seg w 29 3).toNat with
    | 0 => onlyIf (seg w 22 7 = 0) .reservedField <|
      dstOf (seg w 8 7) fun d =>
      srcOf (seg w 15 7) fun a =>
      .ok (.lqctlBind d a)
    | 1 => onlyIf (seg w 22 7 = 0) .reservedField <|
      dstOf (seg w 8 7) fun d =>
      srcOf (seg w 15 7) fun a =>
      .ok (.lqctlRing d a)
    | 2 => onlyIf (seg w 22 7 = 0) .reservedField <|
      dstOf (seg w 8 7) fun d =>
      srcOf (seg w 15 7) fun a =>
      .ok (.lqctlStat d a)
    | 3 => onlyIf (seg w 22 7 = 0) .reservedField <|
      dstOf (seg w 8 7) fun d =>
      srcOf (seg w 15 7) fun a =>
      .ok (.lqctlUnbind d a)
    | _ => .error .undefFunc
  | 0x55 => onlyIf (seg w 28 1 = 0) .undefFunc <|
    onlyIf (seg w 23 3 = 0) .undefFunc <|
    onlyIf (seg w 18 5 = 0) .reservedField <|
    .ok (.kplan (seg w 8 5) (seg w 13 5) (seg w 26 2) (seg w 29 3))
  | 0x56 => match (seg w 23 3).toNat with
    | 0 => onlyIf (seg w 28 1 = 0) .undefFunc <|
      onlyIf (seg w 18 5 = 0) .reservedField <|
      onlyIf (seg w 13 5 = 0) .reservedField <|
      .ok (.kplayCp (seg w 8 5) (seg w 26 2) (seg w 29 3))
    | 1 => onlyIf (seg w 28 1 = 0) .undefFunc <|
      onlyIf (seg w 18 5 = 0) .reservedField <|
      onlyIf (seg w 13 5 = 0) .reservedField <|
      .ok (.kplayFlag (seg w 8 5) (seg w 26 2) (seg w 29 3))
    | _ => .error .undefFunc
  | 0x57 => match (seg w 23 3).toNat with
    | 0 => onlyIf (seg w 26 3 = 0) .undefFunc <|
      onlyIf (seg w 18 5 = 0) .reservedField <|
      .ok (.kcommBind (seg w 8 5) (seg w 13 5) (seg w 29 3))
    | 1 => onlyIf (seg w 28 1 = 0) .undefFunc <|
      onlyIf (seg w 18 5 = 0) .reservedField <|
      onlyIf (seg w 13 5 = 0) .reservedField <|
      .ok (.kcommFree (seg w 8 5) (seg w 26 2) (seg w 29 3))
    | _ => .error .undefFunc
  | 0x58 => onlyIf (seg w 29 3 = 0) .undefFunc <|
    onlyIf (seg w 22 7 = 0) .reservedField <|
    dstOf (seg w 8 7) fun d =>
    srcOf (seg w 15 7) fun a =>
    .ok (.kabrt d a)
  | 0x59 => match (seg w 23 3).toNat with
    | 0 => onlyIf (seg w 26 3 = 0) .reservedField <|
      .ok (.qpostLd (seg w 8 5) (seg w 13 5) (seg w 18 5) (seg w 29 3))
    | 1 => onlyIf (seg w 26 3 = 0) .reservedField <|
      .ok (.qpostFlag (seg w 8 5) (seg w 13 5) (seg w 18 5) (seg w 29 3))
    | _ => .error .undefFunc
  | 0x5A => match (seg w 23 3).toNat with
    | 0 => onlyIf (seg w 26 3 = 0) .reservedField <|
      onlyIf (seg w 18 5 = 0) .reservedField <|
      .ok (.qapndPut (seg w 8 5) (seg w 13 5) (seg w 29 3))
    | 1 => onlyIf (seg w 26 3 = 0) .reservedField <|
      onlyIf (seg w 18 5 = 0) .reservedField <|
      .ok (.qapndAdv (seg w 8 5) (seg w 13 5) (seg w 29 3))
    | 2 => onlyIf (seg w 26 3 = 0) .reservedField <|
      onlyIf (seg w 18 5 = 0) .reservedField <|
      onlyIf (seg w 13 5 = 0) .reservedField <|
      .ok (.qapndClr (seg w 8 5) (seg w 29 3))
    | _ => .error .undefFunc
  | 0x5B => match (seg w 29 3).toNat with
    | 0 => onlyIf (seg w 22 7 = 0) .reservedField <|
      dstOf (seg w 8 7) fun d =>
      srcOf (seg w 15 7) fun a =>
      .ok (.qstatRows d a)
    | 1 => onlyIf (seg w 22 7 = 0) .reservedField <|
      dstOf (seg w 8 7) fun d =>
      srcOf (seg w 15 7) fun a =>
      .ok (.qstatUnit d a)
    | _ => .error .undefFunc
  | _ => .error .undefOp

/-- Decodes the System majors (R61, R62). -/
noncomputable def decodeSystem (w : BitVec 32) : Except DecodeFault Instr :=
  match (seg w 1 7).toNat with
  | 0x5C => match (seg w 27 3).toNat with
    | 0 => onlyIf (csrAssigned (seg w 15 12)) .undefFunc <|
      onlyIf (seg w 30 2 = 0) .reservedField <|
      dstOf (seg w 8 7) fun d =>
      .ok (.csrRd d (seg w 15 12))
    | 1 => onlyIf (csrAssigned (seg w 15 12)) .undefFunc <|
      onlyIf (seg w 30 2 = 0) .reservedField <|
      srcOf (seg w 8 7) fun d =>
      .ok (.csrWr d (seg w 15 12))
    | 2 => onlyIf (csrAssigned (seg w 15 12)) .undefFunc <|
      onlyIf (seg w 30 2 = 0) .reservedField <|
      srcOf (seg w 8 7) fun d =>
      .ok (.csrSet d (seg w 15 12))
    | 3 => onlyIf (csrAssigned (seg w 15 12)) .undefFunc <|
      onlyIf (seg w 30 2 = 0) .reservedField <|
      srcOf (seg w 8 7) fun d =>
      .ok (.csrClr d (seg w 15 12))
    | 4 => onlyIf (csrAssigned (seg w 15 12)) .undefFunc <|
      onlyIf (seg w 30 2 = 0) .reservedField <|
      dstOf (seg w 8 7) fun d =>
      .ok (.csrSwp d (seg w 15 12))
    | _ => .error .undefFunc
  | 0x5D => match (seg w 27 3).toNat with
    | 0 => onlyIf (seg w 30 2 = 0) .reservedField <|
      onlyIf (seg w 15 12 = 0) .reservedField <|
      dstOf (seg w 8 7) fun d =>
      .ok (.sysCommit d)
    | 1 => onlyIf (seg w 30 2 = 0) .reservedField <|
      onlyIf (seg w 15 12 = 0) .reservedField <|
      onlyIf (seg w 8 7 = 0) .reservedField <|
      .ok (.sysEret)
    | 2 => onlyIf (seg w 30 2 = 0) .reservedField <|
      onlyIf (seg w 15 12 = 0) .reservedField <|
      dstOf (seg w 8 7) fun d =>
      .ok (.sysCkpt d)
    | _ => .error .undefFunc
  | 0x5E => match (seg w 29 3).toNat with
    | 0 => dstOf (seg w 8 7) fun d =>
      srcOf (seg w 15 7) fun a =>
      srcOf (seg w 22 7) fun v =>
      .ok (.tlbiRange d a v)
    | 1 => onlyIf (seg w 15 7 = 0) .reservedField <|
      dstOf (seg w 8 7) fun d =>
      srcOf (seg w 22 7) fun v =>
      .ok (.tlbiAsid d v)
    | 2 => onlyIf (seg w 22 7 = 0) .reservedField <|
      onlyIf (seg w 15 7 = 0) .reservedField <|
      dstOf (seg w 8 7) fun d =>
      .ok (.tlbiAll d)
    | _ => .error .undefFunc
  | 0x5F => match (seg w 29 3).toNat with
    | 0 => dstOf (seg w 8 7) fun d =>
      srcOf (seg w 15 7) fun a =>
      srcOf (seg w 22 7) fun v =>
      .ok (.ctxEvict d a v)
    | 1 => dstOf (seg w 8 7) fun d =>
      srcOf (seg w 15 7) fun a =>
      srcOf (seg w 22 7) fun v =>
      .ok (.ctxRestore d a v)
    | 2 => dstOf (seg w 8 7) fun d =>
      srcOf (seg w 15 7) fun a =>
      srcOf (seg w 22 7) fun v =>
      .ok (.ctxResume d a v)
    | 3 => dstOf (seg w 8 7) fun d =>
      srcOf (seg w 15 7) fun a =>
      srcOf (seg w 22 7) fun v =>
      .ok (.ctxDestroy d a v)
    | 4 => onlyIf (seg w 22 7 = 0) .reservedField <|
      dstOf (seg w 8 7) fun d =>
      srcOf (seg w 15 7) fun a =>
      .ok (.ctxPreempt d a)
    | 5 => onlyIf (seg w 22 7 = 0) .reservedField <|
      dstOf (seg w 8 7) fun d =>
      srcOf (seg w 15 7) fun a =>
      .ok (.ctxFreeze d a)
    | _ => .error .undefFunc
  | _ => .error .undefOp

/-- Decodes a 32-bit instruction word (R53 to R65). -/
noncomputable def decode32 (w : BitVec 32) : Except DecodeFault Instr :=
  let op := (seg w 1 7).toNat
  if op < 0x18 then decodeScalar w
  else if op < 0x24 then decodeControl w
  else if op < 0x32 then decodeMemory w
  else if op < 0x40 then decodeActors w
  else if op < 0x48 then decodeMatrix w
  else if op < 0x52 then decodeVector w
  else if op < 0x5C then decodeEngines w
  else if op < 0x60 then decodeSystem w
  else .error .undefOp

/-- Decodes a 16-bit instruction (R66, R67). -/
noncomputable def decode16 (w : BitVec 16) : Except DecodeFault Instr :=
  match (seg w 1 5).toNat with
  | 0x01 => onlyIf (seg w 14 2 = 0) .reservedField <| .ok (.zadd (seg w 6 4) (seg w 10 4))
  | 0x02 => onlyIf (seg w 14 2 = 0) .reservedField <| .ok (.zsub (seg w 6 4) (seg w 10 4))
  | 0x03 => onlyIf (seg w 14 2 = 0) .reservedField <| .ok (.zand (seg w 6 4) (seg w 10 4))
  | 0x04 => onlyIf (seg w 14 2 = 0) .reservedField <| .ok (.zor (seg w 6 4) (seg w 10 4))
  | 0x05 => onlyIf (seg w 14 2 = 0) .reservedField <| .ok (.zxor (seg w 6 4) (seg w 10 4))
  | 0x06 => onlyIf (seg w 14 2 = 0) .reservedField <| .ok (.zmul (seg w 6 4) (seg w 10 4))
  | 0x07 => onlyIf (seg w 14 2 = 0) .reservedField <| .ok (.zdiv (seg w 6 4) (seg w 10 4))
  | 0x08 => onlyIf (seg w 14 2 = 0) .reservedField <| .ok (.zmin (seg w 6 4) (seg w 10 4))
  | 0x09 => onlyIf (seg w 14 2 = 0) .reservedField <| .ok (.zmax (seg w 6 4) (seg w 10 4))
  | 0x0A => onlyIf (seg w 14 2 = 0) .reservedField <| .ok (.zshl (seg w 6 4) (seg w 10 4))
  | 0x0B => onlyIf (seg w 14 2 = 0) .reservedField <| .ok (.zshr (seg w 6 4) (seg w 10 4))
  | 0x0C => onlyIf (seg w 14 2 = 0) .reservedField <| .ok (.zsar (seg w 6 4) (seg w 10 4))
  | 0x0D => onlyIf (seg w 14 2 = 0) .reservedField <| .ok (.zmov (seg w 6 4) (seg w 10 4))
  | 0x0E => onlyIf (seg w 14 2 = 0) .reservedField <| .ok (.zneg (seg w 6 4) (seg w 10 4))
  | 0x0F => .ok (.zaddi (seg w 6 4) (seg w 10 6))
  | 0x10 => .ok (.zli (seg w 6 4) (seg w 10 6))
  | 0x11 => .ok (.zld (seg w 6 4) (seg w 10 4) (seg w 14 2))
  | 0x12 => .ok (.zst (seg w 6 4) (seg w 10 4) (seg w 14 2))
  | 0x13 => .ok (.zldw (seg w 6 4) (seg w 10 4) (seg w 14 2))
  | 0x14 => .ok (.zstw (seg w 6 4) (seg w 10 4) (seg w 14 2))
  | 0x15 => .ok (.zldb (seg w 6 4) (seg w 10 4) (seg w 14 2))
  | 0x16 => .ok (.zstb (seg w 6 4) (seg w 10 4) (seg w 14 2))
  | 0x17 => .ok (.zj (seg w 6 10))
  | 0x18 => onlyIf (seg w 6 10 = 0) .reservedField <| .ok (.zret)
  | _ => .error .undefOp

/-- The 16-bit little-endian value of two bytes (R2). -/
def halfword (b0 b1 : Byte) : BitVec 16 := b1 ++ b0

/-- Decodes the instruction at the head of a byte list and counts its bytes (R51): bit 0 of the first
halfword set means 32 bits. Too few bytes are refused as `shortFetch`. -/
noncomputable def decodeBytes : List Byte → Except DecodeFault (Instr × Nat)
  | b0 :: b1 :: rest =>
    if bit b0 0 then
      match rest with
      | b2 :: b3 :: _ => (decode32 (halfword b2 b3 ++ halfword b0 b1)).map fun i => (i, 4)
      | _ => .error .shortFetch
    else (decode16 (halfword b0 b1)).map fun i => (i, 2)
  | _ => .error .shortFetch

/-- The bytes of a number, lowest first (R2). -/
def bytesLE (n : Nat) : Nat → List Byte
  | 0 => []
  | k + 1 => BitVec.ofNat 8 n :: bytesLE (n / 256) k

/-- What the decoder reads from an instruction whose bits are `w`, numbered from the least significant
bit of the first halfword; the bits above `nbits` are zero. -/
noncomputable def decodeTableWord (nbits w : Nat) : Option Instr :=
  match decodeBytes (bytesLE (w % 2 ^ nbits) 4) with
  | .ok (i, _) => some i
  | .error _ => none

/-- The words of an instruction: a 32-bit word, a halfword, or nothing for an event. -/
inductive Enc where
  | w32 (w : BitVec 32)
  | w16 (w : BitVec 16)
  | none
  deriving DecidableEq, Repr

/-- The encoder, written from the formats of R53 and R66 and the maps of R61 and R67. -/
def encode : Instr → Enc
  | .add d a b g => .w32 (g ++ b.toBits ++ a.toBits ++ d.toBits ++ 0x00#7 ++ 1#1)
  | .sub d a b g => .w32 (g ++ b.toBits ++ a.toBits ++ d.toBits ++ 0x01#7 ++ 1#1)
  | .mul d a b g => .w32 (g ++ b.toBits ++ a.toBits ++ d.toBits ++ 0x02#7 ++ 1#1)
  | .mulh d a b g => .w32 (g ++ b.toBits ++ a.toBits ++ d.toBits ++ 0x03#7 ++ 1#1)
  | .div d a b g => .w32 (g ++ b.toBits ++ a.toBits ++ d.toBits ++ 0x04#7 ++ 1#1)
  | .rem d a b g => .w32 (g ++ b.toBits ++ a.toBits ++ d.toBits ++ 0x05#7 ++ 1#1)
  | .and d a b g => .w32 (g ++ b.toBits ++ a.toBits ++ d.toBits ++ 0x06#7 ++ 1#1)
  | .or d a b g => .w32 (g ++ b.toBits ++ a.toBits ++ d.toBits ++ 0x07#7 ++ 1#1)
  | .xor d a b g => .w32 (g ++ b.toBits ++ a.toBits ++ d.toBits ++ 0x08#7 ++ 1#1)
  | .shl d a b g => .w32 (g ++ b.toBits ++ a.toBits ++ d.toBits ++ 0x09#7 ++ 1#1)
  | .shr d a b g => .w32 (g ++ b.toBits ++ a.toBits ++ d.toBits ++ 0x0A#7 ++ 1#1)
  | .sar d a b g => .w32 (g ++ b.toBits ++ a.toBits ++ d.toBits ++ 0x0B#7 ++ 1#1)
  | .sel d a b p => .w32 (p ++ b.toBits ++ a.toBits ++ d.toBits ++ 0x0C#7 ++ 1#1)
  | .min d a b g => .w32 (g ++ b.toBits ++ a.toBits ++ d.toBits ++ 0x0D#7 ++ 1#1)
  | .max d a b g => .w32 (g ++ b.toBits ++ a.toBits ++ d.toBits ++ 0x0E#7 ++ 1#1)
  | .cmpEq pd a b g => .w32 (g ++ b.toBits ++ a.toBits ++ 0#4 ++ pd ++ 0x0F#7 ++ 1#1)
  | .cmpNe pd a b g => .w32 (g ++ b.toBits ++ a.toBits ++ 1#4 ++ pd ++ 0x0F#7 ++ 1#1)
  | .cmpLt pd a b g => .w32 (g ++ b.toBits ++ a.toBits ++ 2#4 ++ pd ++ 0x0F#7 ++ 1#1)
  | .cmpGe pd a b g => .w32 (g ++ b.toBits ++ a.toBits ++ 3#4 ++ pd ++ 0x0F#7 ++ 1#1)
  | .cmpLe pd a b g => .w32 (g ++ b.toBits ++ a.toBits ++ 4#4 ++ pd ++ 0x0F#7 ++ 1#1)
  | .cmpGt pd a b g => .w32 (g ++ b.toBits ++ a.toBits ++ 5#4 ++ pd ++ 0x0F#7 ++ 1#1)
  | .cmpLtn pd a b g => .w32 (g ++ b.toBits ++ a.toBits ++ 6#4 ++ pd ++ 0x0F#7 ++ 1#1)
  | .cmpGen pd a b g => .w32 (g ++ b.toBits ++ a.toBits ++ 7#4 ++ pd ++ 0x0F#7 ++ 1#1)
  | .cmpLen pd a b g => .w32 (g ++ b.toBits ++ a.toBits ++ 8#4 ++ pd ++ 0x0F#7 ++ 1#1)
  | .cmpGtn pd a b g => .w32 (g ++ b.toBits ++ a.toBits ++ 9#4 ++ pd ++ 0x0F#7 ++ 1#1)
  | .cmpAny pd a b g => .w32 (g ++ b.toBits ++ a.toBits ++ 10#4 ++ pd ++ 0x0F#7 ++ 1#1)
  | .cmpNone pd a b g => .w32 (g ++ b.toBits ++ a.toBits ++ 11#4 ++ pd ++ 0x0F#7 ++ 1#1)
  | .cmpAll pd a b g => .w32 (g ++ b.toBits ++ a.toBits ++ 12#4 ++ pd ++ 0x0F#7 ++ 1#1)
  | .cmpNall pd a b g => .w32 (g ++ b.toBits ++ a.toBits ++ 13#4 ++ pd ++ 0x0F#7 ++ 1#1)
  | .cmpBit pd a b g => .w32 (g ++ b.toBits ++ a.toBits ++ 14#4 ++ pd ++ 0x0F#7 ++ 1#1)
  | .cmpNbit pd a b g => .w32 (g ++ b.toBits ++ a.toBits ++ 15#4 ++ pd ++ 0x0F#7 ++ 1#1)
  | .addi d a imm => .w32 (imm ++ a.toBits ++ d.toBits ++ 0x10#7 ++ 1#1)
  | .logiAnd d a v => .w32 (0#3 ++ v ++ a.toBits ++ d.toBits ++ 0x11#7 ++ 1#1)
  | .logiOr d a v => .w32 (1#3 ++ v ++ a.toBits ++ d.toBits ++ 0x11#7 ++ 1#1)
  | .logiXor d a v => .w32 (2#3 ++ v ++ a.toBits ++ d.toBits ++ 0x11#7 ++ 1#1)
  | .logiAndn d a v => .w32 (3#3 ++ v.toBits ++ a.toBits ++ d.toBits ++ 0x11#7 ++ 1#1)
  | .logiOrn d a v => .w32 (4#3 ++ v.toBits ++ a.toBits ++ d.toBits ++ 0x11#7 ++ 1#1)
  | .logiXnor d a v => .w32 (5#3 ++ v.toBits ++ a.toBits ++ d.toBits ++ 0x11#7 ++ 1#1)
  | .shiShl d a n => .w32 (0#3 ++ 0#1 ++ n ++ a.toBits ++ d.toBits ++ 0x12#7 ++ 1#1)
  | .shiShr d a n => .w32 (1#3 ++ 0#1 ++ n ++ a.toBits ++ d.toBits ++ 0x12#7 ++ 1#1)
  | .shiSar d a n => .w32 (2#3 ++ 0#1 ++ n ++ a.toBits ++ d.toBits ++ 0x12#7 ++ 1#1)
  | .shiRol d a n => .w32 (3#3 ++ 0#1 ++ n ++ a.toBits ++ d.toBits ++ 0x12#7 ++ 1#1)
  | .shiRor d a n => .w32 (4#3 ++ 0#1 ++ n ++ a.toBits ++ d.toBits ++ 0x12#7 ++ 1#1)
  | .lim d imm => .w32 (imm ++ d.toBits ++ 0x13#7 ++ 1#1)
  | .bextU d a v => .w32 (0#3 ++ v.toBits ++ a.toBits ++ d.toBits ++ 0x14#7 ++ 1#1)
  | .bextS d a v => .w32 (1#3 ++ v.toBits ++ a.toBits ++ d.toBits ++ 0x14#7 ++ 1#1)
  | .bextI8 d a v => .w32 (2#3 ++ v.toBits ++ a.toBits ++ d.toBits ++ 0x14#7 ++ 1#1)
  | .bextN8 d a v => .w32 (3#3 ++ v.toBits ++ a.toBits ++ d.toBits ++ 0x14#7 ++ 1#1)
  | .bextI16 d a v => .w32 (4#3 ++ v.toBits ++ a.toBits ++ d.toBits ++ 0x14#7 ++ 1#1)
  | .bextN16 d a v => .w32 (5#3 ++ v.toBits ++ a.toBits ++ d.toBits ++ 0x14#7 ++ 1#1)
  | .bextI32 d a v => .w32 (6#3 ++ v.toBits ++ a.toBits ++ d.toBits ++ 0x14#7 ++ 1#1)
  | .bextN32 d a v => .w32 (7#3 ++ v.toBits ++ a.toBits ++ d.toBits ++ 0x14#7 ++ 1#1)
  | .binsIns d a v => .w32 (0#3 ++ v.toBits ++ a.toBits ++ d.toBits ++ 0x15#7 ++ 1#1)
  | .binsB8 d a v => .w32 (1#3 ++ v.toBits ++ a.toBits ++ d.toBits ++ 0x15#7 ++ 1#1)
  | .binsB16 d a v => .w32 (2#3 ++ v.toBits ++ a.toBits ++ d.toBits ++ 0x15#7 ++ 1#1)
  | .binsB32 d a v => .w32 (3#3 ++ v.toBits ++ a.toBits ++ d.toBits ++ 0x15#7 ++ 1#1)
  | .fsh d a b g => .w32 (g ++ b.toBits ++ a.toBits ++ d.toBits ++ 0x16#7 ++ 1#1)
  | .bcntPop d a => .w32 (0#3 ++ 0#7 ++ a.toBits ++ d.toBits ++ 0x17#7 ++ 1#1)
  | .bcntClz d a => .w32 (1#3 ++ 0#7 ++ a.toBits ++ d.toBits ++ 0x17#7 ++ 1#1)
  | .bcntCtz d a => .w32 (2#3 ++ 0#7 ++ a.toBits ++ d.toBits ++ 0x17#7 ++ 1#1)
  | .bcntClo d a => .w32 (3#3 ++ 0#7 ++ a.toBits ++ d.toBits ++ 0x17#7 ++ 1#1)
  | .bcntCto d a => .w32 (4#3 ++ 0#7 ++ a.toBits ++ d.toBits ++ 0x17#7 ++ 1#1)
  | .bcntRev d a => .w32 (5#3 ++ 0#7 ++ a.toBits ++ d.toBits ++ 0x17#7 ++ 1#1)
  | .bcntBsw d a => .w32 (6#3 ++ 0#7 ++ a.toBits ++ d.toBits ++ 0x17#7 ++ 1#1)
  | .brT p disp => .w32 (disp ++ 0#1 ++ p ++ 0x18#7 ++ 1#1)
  | .brF p disp => .w32 (disp ++ 1#1 ++ p ++ 0x18#7 ++ 1#1)
  | .j disp => .w32 (disp ++ 0x19#7 ++ 1#1)
  | .jl disp => .w32 (disp ++ 0x1A#7 ++ 1#1)
  | .jr d a imm => .w32 (imm ++ a.toBits ++ d.toBits ++ 0x1B#7 ++ 1#1)
  | .lset k a => .w32 (0#1 ++ k ++ 0#7 ++ a.toBits ++ 0#7 ++ 0x1C#7 ++ 1#1)
  | .lend n disp => .w32 (disp ++ 0#1 ++ 0#1 ++ n ++ 0x1D#7 ++ 1#1)
  | .plogClr pd pa pb g => .w32 (g ++ 0#4 ++ pb ++ 0#4 ++ pa ++ 0#4 ++ pd ++ 0x1E#7 ++ 1#1)
  | .plogNor pd pa pb g => .w32 (g ++ 0#4 ++ pb ++ 0#4 ++ pa ++ 1#4 ++ pd ++ 0x1E#7 ++ 1#1)
  | .plogAndna pd pa pb g => .w32 (g ++ 0#4 ++ pb ++ 0#4 ++ pa ++ 2#4 ++ pd ++ 0x1E#7 ++ 1#1)
  | .plogNota pd pa pb g => .w32 (g ++ 0#4 ++ pb ++ 0#4 ++ pa ++ 3#4 ++ pd ++ 0x1E#7 ++ 1#1)
  | .plogAndnb pd pa pb g => .w32 (g ++ 0#4 ++ pb ++ 0#4 ++ pa ++ 4#4 ++ pd ++ 0x1E#7 ++ 1#1)
  | .plogNotb pd pa pb g => .w32 (g ++ 0#4 ++ pb ++ 0#4 ++ pa ++ 5#4 ++ pd ++ 0x1E#7 ++ 1#1)
  | .plogXor pd pa pb g => .w32 (g ++ 0#4 ++ pb ++ 0#4 ++ pa ++ 6#4 ++ pd ++ 0x1E#7 ++ 1#1)
  | .plogNand pd pa pb g => .w32 (g ++ 0#4 ++ pb ++ 0#4 ++ pa ++ 7#4 ++ pd ++ 0x1E#7 ++ 1#1)
  | .plogAnd pd pa pb g => .w32 (g ++ 0#4 ++ pb ++ 0#4 ++ pa ++ 8#4 ++ pd ++ 0x1E#7 ++ 1#1)
  | .plogXnor pd pa pb g => .w32 (g ++ 0#4 ++ pb ++ 0#4 ++ pa ++ 9#4 ++ pd ++ 0x1E#7 ++ 1#1)
  | .plogMovb pd pa pb g => .w32 (g ++ 0#4 ++ pb ++ 0#4 ++ pa ++ 10#4 ++ pd ++ 0x1E#7 ++ 1#1)
  | .plogOrna pd pa pb g => .w32 (g ++ 0#4 ++ pb ++ 0#4 ++ pa ++ 11#4 ++ pd ++ 0x1E#7 ++ 1#1)
  | .plogMova pd pa pb g => .w32 (g ++ 0#4 ++ pb ++ 0#4 ++ pa ++ 12#4 ++ pd ++ 0x1E#7 ++ 1#1)
  | .plogOrnb pd pa pb g => .w32 (g ++ 0#4 ++ pb ++ 0#4 ++ pa ++ 13#4 ++ pd ++ 0x1E#7 ++ 1#1)
  | .plogOr pd pa pb g => .w32 (g ++ 0#4 ++ pb ++ 0#4 ++ pa ++ 14#4 ++ pd ++ 0x1E#7 ++ 1#1)
  | .plogSet pd pa pb g => .w32 (g ++ 0#4 ++ pb ++ 0#4 ++ pa ++ 15#4 ++ pd ++ 0x1E#7 ++ 1#1)
  | .cset a mask => .w32 (0#2 ++ mask ++ a.toBits ++ 0#7 ++ 0x1F#7 ++ 1#1)
  | .adr k d a v => .w32 (0#1 ++ k ++ v.toBits ++ a.toBits ++ d.toBits ++ 0x20#7 ++ 1#1)
  | .hret g => .w32 (g ++ 0#7 ++ 0#7 ++ 0#7 ++ 0x21#7 ++ 1#1)
  | .hint kind imm => .w32 (imm ++ kind ++ 0x22#7 ++ 1#1)
  | .getcPc d => .w32 (0#2 ++ 0#3 ++ 0#12 ++ d.toBits ++ 0x23#7 ++ 1#1)
  | .getcHdr0 d => .w32 (0#2 ++ 1#3 ++ 0#12 ++ d.toBits ++ 0x23#7 ++ 1#1)
  | .getcHdr1 d => .w32 (0#2 ++ 2#3 ++ 0#12 ++ d.toBits ++ 0x23#7 ++ 1#1)
  | .getcPrd d => .w32 (0#2 ++ 3#3 ++ 0#12 ++ d.toBits ++ 0x23#7 ++ 1#1)
  | .ld d b sz off g => .w32 (g ++ off ++ sz ++ b.toBits ++ d.toBits ++ 0x24#7 ++ 1#1)
  | .ldn d b sz off g => .w32 (g ++ off ++ sz ++ b.toBits ++ d.toBits ++ 0x25#7 ++ 1#1)
  | .st d b sz off g => .w32 (g ++ off ++ sz ++ b.toBits ++ d.toBits ++ 0x26#7 ++ 1#1)
  | .ldh t b off g => .w32 (g ++ off ++ 0#2 ++ b.toBits ++ 0#2 ++ t ++ 0x27#7 ++ 1#1)
  | .sth t b off g => .w32 (g ++ off ++ 0#2 ++ b.toBits ++ 0#2 ++ t ++ 0x28#7 ++ 1#1)
  | .amoAdd d a v => .w32 (0#3 ++ v.toBits ++ a.toBits ++ d.toBits ++ 0x29#7 ++ 1#1)
  | .amoAnd d a v => .w32 (1#3 ++ v.toBits ++ a.toBits ++ d.toBits ++ 0x29#7 ++ 1#1)
  | .amoOr d a v => .w32 (2#3 ++ v.toBits ++ a.toBits ++ d.toBits ++ 0x29#7 ++ 1#1)
  | .amoXor d a v => .w32 (3#3 ++ v.toBits ++ a.toBits ++ d.toBits ++ 0x29#7 ++ 1#1)
  | .amoMin d a v => .w32 (4#3 ++ v.toBits ++ a.toBits ++ d.toBits ++ 0x29#7 ++ 1#1)
  | .amoMax d a v => .w32 (5#3 ++ v.toBits ++ a.toBits ++ d.toBits ++ 0x29#7 ++ 1#1)
  | .amoSwp d a v => .w32 (6#3 ++ v.toBits ++ a.toBits ++ d.toBits ++ 0x29#7 ++ 1#1)
  | .amoA96 d a v => .w32 (7#3 ++ v.toBits ++ a.toBits ++ d.toBits ++ 0x29#7 ++ 1#1)
  | .casW d a v => .w32 (0#3 ++ v.toBits ++ a.toBits ++ d.toBits ++ 0x2A#7 ++ 1#1)
  | .casD d a v => .w32 (1#3 ++ v.toBits ++ a.toBits ++ d.toBits ++ 0x2A#7 ++ 1#1)
  | .qclaim d a v => .w32 (0#3 ++ v.toBits ++ a.toBits ++ d.toBits ++ 0x2B#7 ++ 1#1)
  | .fenceAcq scope => .w32 (0#3 ++ 0#4 ++ scope ++ 0#7 ++ 0#7 ++ 0x2C#7 ++ 1#1)
  | .fenceRel scope => .w32 (1#3 ++ 0#4 ++ scope ++ 0#7 ++ 0#7 ++ 0x2C#7 ++ 1#1)
  | .fenceFull scope => .w32 (2#3 ++ 0#4 ++ scope ++ 0#7 ++ 0#7 ++ 0x2C#7 ++ 1#1)
  | .waddrEq d a v => .w32 (0#3 ++ v.toBits ++ a.toBits ++ d.toBits ++ 0x2D#7 ++ 1#1)
  | .waddrNe d a v => .w32 (1#3 ++ v.toBits ++ a.toBits ++ d.toBits ++ 0x2D#7 ++ 1#1)
  | .waddrGes d a v => .w32 (2#3 ++ v.toBits ++ a.toBits ++ d.toBits ++ 0x2D#7 ++ 1#1)
  | .waddrAny d a v => .w32 (3#3 ++ v.toBits ++ a.toBits ++ d.toBits ++ 0x2D#7 ++ 1#1)
  | .wbead ld st cp tl => .w32 (tl ++ cp ++ st ++ ld ++ 0x2E#7 ++ 1#1)
  | .pwld d b sz sx w g => .w32 (g ++ 0#1 ++ sx ++ w ++ sz ++ b.toBits ++ d.toBits ++ 0x2F#7 ++ 1#1)
  | .ldx d b sz sx k g => .w32 (g ++ 0#2 ++ sx ++ k ++ sz ++ b.toBits ++ d.toBits ++ 0x30#7 ++ 1#1)
  | .stx d b sz k g => .w32 (g ++ 0#3 ++ k ++ sz ++ b.toBits ++ d.toBits ++ 0x31#7 ++ 1#1)
  | .send a b type mb => .w32 (mb ++ type ++ b.toBits ++ a.toBits ++ 0x32#7 ++ 1#1)
  | .sendr a b type mb => .w32 (mb ++ type ++ b.toBits ++ a.toBits ++ 0x33#7 ++ 1#1)
  | .mbcfgSet d a v => .w32 (0#3 ++ v.toBits ++ a.toBits ++ d.toBits ++ 0x34#7 ++ 1#1)
  | .mbcfgOff d v => .w32 (1#3 ++ v.toBits ++ 0#7 ++ d.toBits ++ 0x34#7 ++ 1#1)
  | .mbcfgKey d a v => .w32 (2#3 ++ v.toBits ++ a.toBits ++ d.toBits ++ 0x34#7 ++ 1#1)
  | .mbcfgStat d v => .w32 (3#3 ++ v.toBits ++ 0#7 ++ d.toBits ++ 0x34#7 ++ 1#1)
  | .mbcfgRcan d => .w32 (4#3 ++ 0#7 ++ 0#7 ++ d.toBits ++ 0x34#7 ++ 1#1)
  | .actorNew d a => .w32 (0#3 ++ 0#7 ++ a.toBits ++ d.toBits ++ 0x35#7 ++ 1#1)
  | .actorExit => .w32 (1#3 ++ 0#7 ++ 0#7 ++ 0#7 ++ 0x35#7 ++ 1#1)
  | .actorKill d a => .w32 (2#3 ++ 0#7 ++ a.toBits ++ d.toBits ++ 0x35#7 ++ 1#1)
  | .launch d a v => .w32 (0#3 ++ v.toBits ++ a.toBits ++ d.toBits ++ 0x36#7 ++ 1#1)
  | .joinStat d a => .w32 (0#3 ++ 0#7 ++ a.toBits ++ d.toBits ++ 0x37#7 ++ 1#1)
  | .joinKill d a => .w32 (1#3 ++ 0#7 ++ a.toBits ++ d.toBits ++ 0x37#7 ++ 1#1)
  | .wlapp d a v => .w32 (0#3 ++ v.toBits ++ a.toBits ++ d.toBits ++ 0x38#7 ++ 1#1)
  | .wltakeCore d v => .w32 (0#3 ++ v.toBits ++ 0#7 ++ d.toBits ++ 0x39#7 ++ 1#1)
  | .wltakeQuad d v => .w32 (1#3 ++ v.toBits ++ 0#7 ++ d.toBits ++ 0x39#7 ++ 1#1)
  | .wltakeClus d v => .w32 (2#3 ++ v.toBits ++ 0#7 ++ d.toBits ++ 0x39#7 ++ 1#1)
  | .barr d a => .w32 (0#3 ++ 0#7 ++ a.toBits ++ d.toBits ++ 0x3A#7 ++ 1#1)
  | .bwait d a v => .w32 (0#3 ++ v.toBits ++ a.toBits ++ d.toBits ++ 0x3B#7 ++ 1#1)
  | .balloc scope d a => .w32 (scope ++ 0#7 ++ a.toBits ++ d.toBits ++ 0x3C#7 ++ 1#1)
  | .bfree d a => .w32 (0#3 ++ 0#7 ++ a.toBits ++ d.toBits ++ 0x3D#7 ++ 1#1)
  | .quiesArm d a v => .w32 (0#3 ++ v.toBits ++ a.toBits ++ d.toBits ++ 0x3E#7 ++ 1#1)
  | .quiesDisarm d a v => .w32 (1#3 ++ v.toBits ++ a.toBits ++ d.toBits ++ 0x3E#7 ++ 1#1)
  | .quiesTest d a v => .w32 (2#3 ++ v.toBits ++ a.toBits ++ d.toBits ++ 0x3E#7 ++ 1#1)
  | .rgsetRd d a v => .w32 (0#3 ++ v.toBits ++ a.toBits ++ d.toBits ++ 0x3F#7 ++ 1#1)
  | .rgsetWr d a v => .w32 (1#3 ++ v.toBits ++ a.toBits ++ d.toBits ++ 0x3F#7 ++ 1#1)
  | .rgsetClr d a => .w32 (2#3 ++ 0#7 ++ a.toBits ++ d.toBits ++ 0x3F#7 ++ 1#1)
  | .mma td ta tb g => .w32 (g ++ 0#3 ++ 0#3 ++ tb ++ ta ++ td ++ 0x40#7 ++ 1#1)
  | .mzeroZero td g => .w32 (g ++ 0#3 ++ 0#3 ++ 0#5 ++ 0#5 ++ td ++ 0x41#7 ++ 1#1)
  | .mzeroLoad td ta g => .w32 (g ++ 0#3 ++ 1#3 ++ 0#5 ++ ta ++ td ++ 0x41#7 ++ 1#1)
  | .mzeroAdd td ta g => .w32 (g ++ 0#3 ++ 2#3 ++ 0#5 ++ ta ++ td ++ 0x41#7 ++ 1#1)
  | .mzeroStat td ta g => .w32 (g ++ 0#3 ++ 3#3 ++ 0#5 ++ ta ++ td ++ 0x41#7 ++ 1#1)
  | .mcvtRne td ta ctl g => .w32 (g ++ 0#2 ++ ctl ++ 0#3 ++ 0#5 ++ ta ++ td ++ 0x42#7 ++ 1#1)
  | .mcvtRtz td ta ctl g => .w32 (g ++ 0#2 ++ ctl ++ 1#3 ++ 0#5 ++ ta ++ td ++ 0x42#7 ++ 1#1)
  | .mcvtRdn td ta ctl g => .w32 (g ++ 0#2 ++ ctl ++ 2#3 ++ 0#5 ++ ta ++ td ++ 0x42#7 ++ 1#1)
  | .mcvtRup td ta ctl g => .w32 (g ++ 0#2 ++ ctl ++ 3#3 ++ 0#5 ++ ta ++ td ++ 0x42#7 ++ 1#1)
  | .mcvtSrk td ta ctl g => .w32 (g ++ 0#2 ++ ctl ++ 4#3 ++ 0#5 ++ ta ++ td ++ 0x42#7 ++ 1#1)
  | .mresc td ta tb g => .w32 (g ++ 0#3 ++ 0#3 ++ tb ++ ta ++ td ++ 0x43#7 ++ 1#1)
  | .mstatRd td ta g => .w32 (g ++ 0#3 ++ 0#3 ++ 0#5 ++ ta ++ td ++ 0x44#7 ++ 1#1)
  | .mstatRdclr td ta g => .w32 (g ++ 0#3 ++ 1#3 ++ 0#5 ++ ta ++ td ++ 0x44#7 ++ 1#1)
  | .manch td g => .w32 (g ++ 0#3 ++ 0#3 ++ 0#5 ++ 0#5 ++ td ++ 0x45#7 ++ 1#1)
  | .mbput td ta g => .w32 (g ++ 0#3 ++ 0#3 ++ 0#5 ++ ta ++ td ++ 0x46#7 ++ 1#1)
  | .mpost td g => .w32 (g ++ 0#3 ++ 0#3 ++ 0#5 ++ 0#5 ++ td ++ 0x47#7 ++ 1#1)
  | .vmapAdd td ta tb ctl g => .w32 (g ++ ctl ++ 0#3 ++ tb ++ ta ++ td ++ 0x48#7 ++ 1#1)
  | .vmapSub td ta tb ctl g => .w32 (g ++ ctl ++ 1#3 ++ tb ++ ta ++ td ++ 0x48#7 ++ 1#1)
  | .vmapMul td ta tb ctl g => .w32 (g ++ ctl ++ 2#3 ++ tb ++ ta ++ td ++ 0x48#7 ++ 1#1)
  | .vmapMin td ta tb ctl g => .w32 (g ++ ctl ++ 3#3 ++ tb ++ ta ++ td ++ 0x48#7 ++ 1#1)
  | .vmapMax td ta tb ctl g => .w32 (g ++ ctl ++ 4#3 ++ tb ++ ta ++ td ++ 0x48#7 ++ 1#1)
  | .vmapAbs td ta ctl g => .w32 (g ++ ctl ++ 5#3 ++ 0#5 ++ ta ++ td ++ 0x48#7 ++ 1#1)
  | .vmapNeg td ta ctl g => .w32 (g ++ ctl ++ 6#3 ++ 0#5 ++ ta ++ td ++ 0x48#7 ++ 1#1)
  | .vfmaFma td ta tb ctl g => .w32 (g ++ ctl ++ 0#3 ++ tb ++ ta ++ td ++ 0x49#7 ++ 1#1)
  | .vfmaFms td ta tb ctl g => .w32 (g ++ ctl ++ 1#3 ++ tb ++ ta ++ td ++ 0x49#7 ++ 1#1)
  | .vfmaFnma td ta tb ctl g => .w32 (g ++ ctl ++ 2#3 ++ tb ++ ta ++ td ++ 0x49#7 ++ 1#1)
  | .vfmaFnms td ta tb ctl g => .w32 (g ++ ctl ++ 3#3 ++ tb ++ ta ++ td ++ 0x49#7 ++ 1#1)
  | .vcmpEq td ta tb g => .w32 (g ++ 0#3 ++ 0#3 ++ tb ++ ta ++ td ++ 0x4A#7 ++ 1#1)
  | .vcmpNe td ta tb g => .w32 (g ++ 0#3 ++ 1#3 ++ tb ++ ta ++ td ++ 0x4A#7 ++ 1#1)
  | .vcmpLt td ta tb g => .w32 (g ++ 0#3 ++ 2#3 ++ tb ++ ta ++ td ++ 0x4A#7 ++ 1#1)
  | .vcmpLe td ta tb g => .w32 (g ++ 0#3 ++ 3#3 ++ tb ++ ta ++ td ++ 0x4A#7 ++ 1#1)
  | .vcmpGt td ta tb g => .w32 (g ++ 0#3 ++ 4#3 ++ tb ++ ta ++ td ++ 0x4A#7 ++ 1#1)
  | .vcmpGe td ta tb g => .w32 (g ++ 0#3 ++ 5#3 ++ tb ++ ta ++ td ++ 0x4A#7 ++ 1#1)
  | .vcmpUn td ta tb g => .w32 (g ++ 0#3 ++ 6#3 ++ tb ++ ta ++ td ++ 0x4A#7 ++ 1#1)
  | .vcmpOrd td ta tb g => .w32 (g ++ 0#3 ++ 7#3 ++ tb ++ ta ++ td ++ 0x4A#7 ++ 1#1)
  | .vlogAnd td ta tb g => .w32 (g ++ 0#3 ++ 0#3 ++ tb ++ ta ++ td ++ 0x4B#7 ++ 1#1)
  | .vlogOr td ta tb g => .w32 (g ++ 0#3 ++ 1#3 ++ tb ++ ta ++ td ++ 0x4B#7 ++ 1#1)
  | .vlogXor td ta tb g => .w32 (g ++ 0#3 ++ 2#3 ++ tb ++ ta ++ td ++ 0x4B#7 ++ 1#1)
  | .vlogAndn td ta tb g => .w32 (g ++ 0#3 ++ 3#3 ++ tb ++ ta ++ td ++ 0x4B#7 ++ 1#1)
  | .vlogNot td ta g => .w32 (g ++ 0#3 ++ 4#3 ++ 0#5 ++ ta ++ td ++ 0x4B#7 ++ 1#1)
  | .vlogMnot td ta g => .w32 (g ++ 0#3 ++ 5#3 ++ 0#5 ++ ta ++ td ++ 0x4B#7 ++ 1#1)
  | .vshfShl td ta tb g => .w32 (g ++ 0#3 ++ 0#3 ++ tb ++ ta ++ td ++ 0x4C#7 ++ 1#1)
  | .vshfShr td ta tb g => .w32 (g ++ 0#3 ++ 1#3 ++ tb ++ ta ++ td ++ 0x4C#7 ++ 1#1)
  | .vshfSar td ta tb g => .w32 (g ++ 0#3 ++ 2#3 ++ tb ++ ta ++ td ++ 0x4C#7 ++ 1#1)
  | .vshfRshr td ta tb g => .w32 (g ++ 0#3 ++ 3#3 ++ tb ++ ta ++ td ++ 0x4C#7 ++ 1#1)
  | .vredSum td ta ctl g => .w32 (g ++ ctl ++ 0#3 ++ 0#5 ++ ta ++ td ++ 0x4D#7 ++ 1#1)
  | .vredMax td ta ctl g => .w32 (g ++ ctl ++ 1#3 ++ 0#5 ++ ta ++ td ++ 0x4D#7 ++ 1#1)
  | .vredMin td ta ctl g => .w32 (g ++ ctl ++ 2#3 ++ 0#5 ++ ta ++ td ++ 0x4D#7 ++ 1#1)
  | .vredAmax td ta ctl g => .w32 (g ++ ctl ++ 3#3 ++ 0#5 ++ ta ++ td ++ 0x4D#7 ++ 1#1)
  | .vredImax td ta g => .w32 (g ++ 0#3 ++ 4#3 ++ 0#5 ++ ta ++ td ++ 0x4D#7 ++ 1#1)
  | .vredImin td ta g => .w32 (g ++ 0#3 ++ 5#3 ++ 0#5 ++ ta ++ td ++ 0x4D#7 ++ 1#1)
  | .vxfExp2 td ta ctl g => .w32 (g ++ ctl ++ 0#3 ++ 0#5 ++ ta ++ td ++ 0x4E#7 ++ 1#1)
  | .vxfLog2 td ta ctl g => .w32 (g ++ ctl ++ 1#3 ++ 0#5 ++ ta ++ td ++ 0x4E#7 ++ 1#1)
  | .vxfRcp td ta ctl g => .w32 (g ++ ctl ++ 2#3 ++ 0#5 ++ ta ++ td ++ 0x4E#7 ++ 1#1)
  | .vxfRsqrt td ta ctl g => .w32 (g ++ ctl ++ 3#3 ++ 0#5 ++ ta ++ td ++ 0x4E#7 ++ 1#1)
  | .vxfSin td ta ctl g => .w32 (g ++ ctl ++ 4#3 ++ 0#5 ++ ta ++ td ++ 0x4E#7 ++ 1#1)
  | .vxfCos td ta ctl g => .w32 (g ++ ctl ++ 5#3 ++ 0#5 ++ ta ++ td ++ 0x4E#7 ++ 1#1)
  | .vcvtRne td ta ctl g => .w32 (g ++ 0#2 ++ ctl ++ 0#3 ++ 0#5 ++ ta ++ td ++ 0x4F#7 ++ 1#1)
  | .vcvtRtz td ta ctl g => .w32 (g ++ 0#2 ++ ctl ++ 1#3 ++ 0#5 ++ ta ++ td ++ 0x4F#7 ++ 1#1)
  | .vcvtRdn td ta ctl g => .w32 (g ++ 0#2 ++ ctl ++ 2#3 ++ 0#5 ++ ta ++ td ++ 0x4F#7 ++ 1#1)
  | .vcvtRup td ta ctl g => .w32 (g ++ 0#2 ++ ctl ++ 3#3 ++ 0#5 ++ ta ++ td ++ 0x4F#7 ++ 1#1)
  | .vcvtSrk td ta ctl g => .w32 (g ++ 0#2 ++ ctl ++ 4#3 ++ 0#5 ++ ta ++ td ++ 0x4F#7 ++ 1#1)
  | .vselSel td ta tb g => .w32 (g ++ 0#3 ++ 0#3 ++ tb ++ ta ++ td ++ 0x50#7 ++ 1#1)
  | .vselGath td ta tb g => .w32 (g ++ 0#3 ++ 1#3 ++ tb ++ ta ++ td ++ 0x50#7 ++ 1#1)
  | .vselRgath td ta tb g => .w32 (g ++ 0#3 ++ 2#3 ++ tb ++ ta ++ td ++ 0x50#7 ++ 1#1)
  | .vselCmpr td ta tb g => .w32 (g ++ 0#3 ++ 3#3 ++ tb ++ ta ++ td ++ 0x50#7 ++ 1#1)
  | .vpermTr td ta g => .w32 (g ++ 0#3 ++ 0#3 ++ 0#5 ++ ta ++ td ++ 0x51#7 ++ 1#1)
  | .vpermRev td ta g => .w32 (g ++ 0#3 ++ 1#3 ++ 0#5 ++ ta ++ td ++ 0x51#7 ++ 1#1)
  | .vpermZip td ta g => .w32 (g ++ 0#3 ++ 2#3 ++ 0#5 ++ ta ++ td ++ 0x51#7 ++ 1#1)
  | .vpermUnzip td ta g => .w32 (g ++ 0#3 ++ 3#3 ++ 0#5 ++ ta ++ td ++ 0x51#7 ++ 1#1)
  | .lpostCp td ctl g => .w32 (g ++ 0#1 ++ ctl ++ 0#3 ++ 0#5 ++ 0#5 ++ td ++ 0x52#7 ++ 1#1)
  | .lpostPkt td ctl g => .w32 (g ++ 0#1 ++ ctl ++ 1#3 ++ 0#5 ++ 0#5 ++ td ++ 0x52#7 ++ 1#1)
  | .lshapeElem td ta ctl g => .w32 (g ++ 0#1 ++ ctl ++ 0#3 ++ 0#5 ++ ta ++ td ++ 0x53#7 ++ 1#1)
  | .lshapeScale td ta ctl g => .w32 (g ++ 0#1 ++ ctl ++ 1#3 ++ 0#5 ++ ta ++ td ++ 0x53#7 ++ 1#1)
  | .lqctlBind d a => .w32 (0#3 ++ 0#7 ++ a.toBits ++ d.toBits ++ 0x54#7 ++ 1#1)
  | .lqctlRing d a => .w32 (1#3 ++ 0#7 ++ a.toBits ++ d.toBits ++ 0x54#7 ++ 1#1)
  | .lqctlStat d a => .w32 (2#3 ++ 0#7 ++ a.toBits ++ d.toBits ++ 0x54#7 ++ 1#1)
  | .lqctlUnbind d a => .w32 (3#3 ++ 0#7 ++ a.toBits ++ d.toBits ++ 0x54#7 ++ 1#1)
  | .kplan td ta ctl g => .w32 (g ++ 0#1 ++ ctl ++ 0#3 ++ 0#5 ++ ta ++ td ++ 0x55#7 ++ 1#1)
  | .kplayCp td ctl g => .w32 (g ++ 0#1 ++ ctl ++ 0#3 ++ 0#5 ++ 0#5 ++ td ++ 0x56#7 ++ 1#1)
  | .kplayFlag td ctl g => .w32 (g ++ 0#1 ++ ctl ++ 1#3 ++ 0#5 ++ 0#5 ++ td ++ 0x56#7 ++ 1#1)
  | .kcommBind td ta g => .w32 (g ++ 0#3 ++ 0#3 ++ 0#5 ++ ta ++ td ++ 0x57#7 ++ 1#1)
  | .kcommFree td ctl g => .w32 (g ++ 0#1 ++ ctl ++ 1#3 ++ 0#5 ++ 0#5 ++ td ++ 0x57#7 ++ 1#1)
  | .kabrt d a => .w32 (0#3 ++ 0#7 ++ a.toBits ++ d.toBits ++ 0x58#7 ++ 1#1)
  | .qpostLd td ta tb g => .w32 (g ++ 0#3 ++ 0#3 ++ tb ++ ta ++ td ++ 0x59#7 ++ 1#1)
  | .qpostFlag td ta tb g => .w32 (g ++ 0#3 ++ 1#3 ++ tb ++ ta ++ td ++ 0x59#7 ++ 1#1)
  | .qapndPut td ta g => .w32 (g ++ 0#3 ++ 0#3 ++ 0#5 ++ ta ++ td ++ 0x5A#7 ++ 1#1)
  | .qapndAdv td ta g => .w32 (g ++ 0#3 ++ 1#3 ++ 0#5 ++ ta ++ td ++ 0x5A#7 ++ 1#1)
  | .qapndClr td g => .w32 (g ++ 0#3 ++ 2#3 ++ 0#5 ++ 0#5 ++ td ++ 0x5A#7 ++ 1#1)
  | .qstatRows d a => .w32 (0#3 ++ 0#7 ++ a.toBits ++ d.toBits ++ 0x5B#7 ++ 1#1)
  | .qstatUnit d a => .w32 (1#3 ++ 0#7 ++ a.toBits ++ d.toBits ++ 0x5B#7 ++ 1#1)
  | .csrRd d csr => .w32 (0#2 ++ 0#3 ++ csr ++ d.toBits ++ 0x5C#7 ++ 1#1)
  | .csrWr d csr => .w32 (0#2 ++ 1#3 ++ csr ++ d.toBits ++ 0x5C#7 ++ 1#1)
  | .csrSet d csr => .w32 (0#2 ++ 2#3 ++ csr ++ d.toBits ++ 0x5C#7 ++ 1#1)
  | .csrClr d csr => .w32 (0#2 ++ 3#3 ++ csr ++ d.toBits ++ 0x5C#7 ++ 1#1)
  | .csrSwp d csr => .w32 (0#2 ++ 4#3 ++ csr ++ d.toBits ++ 0x5C#7 ++ 1#1)
  | .sysCommit d => .w32 (0#2 ++ 0#3 ++ 0#12 ++ d.toBits ++ 0x5D#7 ++ 1#1)
  | .sysEret => .w32 (0#2 ++ 1#3 ++ 0#12 ++ 0#7 ++ 0x5D#7 ++ 1#1)
  | .sysCkpt d => .w32 (0#2 ++ 2#3 ++ 0#12 ++ d.toBits ++ 0x5D#7 ++ 1#1)
  | .tlbiRange d a v => .w32 (0#3 ++ v.toBits ++ a.toBits ++ d.toBits ++ 0x5E#7 ++ 1#1)
  | .tlbiAsid d v => .w32 (1#3 ++ v.toBits ++ 0#7 ++ d.toBits ++ 0x5E#7 ++ 1#1)
  | .tlbiAll d => .w32 (2#3 ++ 0#7 ++ 0#7 ++ d.toBits ++ 0x5E#7 ++ 1#1)
  | .ctxEvict d a v => .w32 (0#3 ++ v.toBits ++ a.toBits ++ d.toBits ++ 0x5F#7 ++ 1#1)
  | .ctxRestore d a v => .w32 (1#3 ++ v.toBits ++ a.toBits ++ d.toBits ++ 0x5F#7 ++ 1#1)
  | .ctxResume d a v => .w32 (2#3 ++ v.toBits ++ a.toBits ++ d.toBits ++ 0x5F#7 ++ 1#1)
  | .ctxDestroy d a v => .w32 (3#3 ++ v.toBits ++ a.toBits ++ d.toBits ++ 0x5F#7 ++ 1#1)
  | .ctxPreempt d a => .w32 (4#3 ++ 0#7 ++ a.toBits ++ d.toBits ++ 0x5F#7 ++ 1#1)
  | .ctxFreeze d a => .w32 (5#3 ++ 0#7 ++ a.toBits ++ d.toBits ++ 0x5F#7 ++ 1#1)
  | .zadd x y => .w16 (0#2 ++ y ++ x ++ 0x01#5 ++ 0#1)
  | .zsub x y => .w16 (0#2 ++ y ++ x ++ 0x02#5 ++ 0#1)
  | .zand x y => .w16 (0#2 ++ y ++ x ++ 0x03#5 ++ 0#1)
  | .zor x y => .w16 (0#2 ++ y ++ x ++ 0x04#5 ++ 0#1)
  | .zxor x y => .w16 (0#2 ++ y ++ x ++ 0x05#5 ++ 0#1)
  | .zmul x y => .w16 (0#2 ++ y ++ x ++ 0x06#5 ++ 0#1)
  | .zdiv x y => .w16 (0#2 ++ y ++ x ++ 0x07#5 ++ 0#1)
  | .zmin x y => .w16 (0#2 ++ y ++ x ++ 0x08#5 ++ 0#1)
  | .zmax x y => .w16 (0#2 ++ y ++ x ++ 0x09#5 ++ 0#1)
  | .zshl x y => .w16 (0#2 ++ y ++ x ++ 0x0A#5 ++ 0#1)
  | .zshr x y => .w16 (0#2 ++ y ++ x ++ 0x0B#5 ++ 0#1)
  | .zsar x y => .w16 (0#2 ++ y ++ x ++ 0x0C#5 ++ 0#1)
  | .zmov x y => .w16 (0#2 ++ y ++ x ++ 0x0D#5 ++ 0#1)
  | .zneg x y => .w16 (0#2 ++ y ++ x ++ 0x0E#5 ++ 0#1)
  | .zaddi x imm => .w16 (imm ++ x ++ 0x0F#5 ++ 0#1)
  | .zli x imm => .w16 (imm ++ x ++ 0x10#5 ++ 0#1)
  | .zld x y off => .w16 (off ++ y ++ x ++ 0x11#5 ++ 0#1)
  | .zst x y off => .w16 (off ++ y ++ x ++ 0x12#5 ++ 0#1)
  | .zldw x y off => .w16 (off ++ y ++ x ++ 0x13#5 ++ 0#1)
  | .zstw x y off => .w16 (off ++ y ++ x ++ 0x14#5 ++ 0#1)
  | .zldb x y off => .w16 (off ++ y ++ x ++ 0x15#5 ++ 0#1)
  | .zstb x y off => .w16 (off ++ y ++ x ++ 0x16#5 ++ 0#1)
  | .zj imm => .w16 (imm ++ 0x17#5 ++ 0#1)
  | .zret => .w16 (0#10 ++ 0x18#5 ++ 0#1)
  | .retryDelay .. => .none
  | .delivery .. => .none
  | .retry .. => .none
  | .dispatch .. => .none
  | .preEmpted .. => .none
  | .ageing .. => .none
  | .waitEnd .. => .none
  | .childPlacement .. => .none
  | .loadReference .. => .none
  | .unload .. => .none
  | .objectFreed .. => .none
  | .quiesced .. => .none
  | .evictComplete .. => .none
  | .inFlightDrain .. => .none
  | .tlbiDrained .. => .none
  | .mxuInboxPost .. => .none
  | .mxuCmdMma .. => .none
  | .mxuCmdMzero .. => .none
  | .mxuCmdMcvt .. => .none
  | .mxuCmdMresc .. => .none
  | .mxuCmdMstat .. => .none
  | .mxuCmdManch .. => .none
  | .mxuCmdMbput .. => .none
  | .mxuReply .. => .none
  | .vectorInboxPost .. => .none
  | .vecCmdVmap .. => .none
  | .vecCmdVfma .. => .none
  | .vecCmdVcmp .. => .none
  | .vecCmdVlog .. => .none
  | .vecCmdVshf .. => .none
  | .vecCmdVred .. => .none
  | .vecCmdVxf .. => .none
  | .vecCmdVcvt .. => .none
  | .vecCmdVsel .. => .none
  | .vecCmdVperm .. => .none
  | .vectorReply .. => .none
  | .doorbell .. => .none
  | .queuePoll .. => .none
  | .ladleCopy .. => .none
  | .ladleFill .. => .none
  | .ladleRelayout .. => .none
  | .ladleNop .. => .none
  | .ladleLaunch .. => .none
  | .ladleReply .. => .none
  | .runnerInboxPost .. => .none
  | .kcommBindCmd .. => .none
  | .kcommFreeCmd .. => .none
  | .kplanCmd .. => .none
  | .play .. => .none
  | .runnerSendOp .. => .none
  | .runnerRecvOp .. => .none
  | .runnerMcastOp .. => .none
  | .runnerWaitOp .. => .none
  | .runnerAlignOp .. => .none
  | .chunkArrival .. => .none
  | .sendAccepted .. => .none
  | .creditReturn .. => .none
  | .buddyTimeout .. => .none
  | .runnerSilent .. => .none
  | .abortToken .. => .none
  | .request .. => .none
  | .alertEnd .. => .none
  | .reply .. => .none
  | .scratchpadAccess .. => .none
  | .scrub .. => .none
  | .refresh .. => .none
  | .laneRepair .. => .none
  | .repairComplete .. => .none
  | .repairTimeout .. => .none
  | .rebuildComplete .. => .none
  | .reckonerQuery .. => .none
  | .record .. => .none
  | .qapndPutCmd .. => .none
  | .qapndAdvCmd .. => .none
  | .qapndClrCmd .. => .none
  | .launchQueueRecord .. => .none
  | .coalescingWindow .. => .none
  | .frameDrop .. => .none
  | .frameLaunch .. => .none
  | .frameCopy .. => .none
  | .frameDefault .. => .none
  | .crcReplay .. => .none
  | .linkDown .. => .none
  | .nodeUnreachable .. => .none
  | .moduleReset .. => .none
  | .attestationReport .. => .none
  | .clockChange .. => .none
  | .registerWrite .. => .none
  | .unassignedEncoding .. => .none
  | .buddyCopyRequest .. => .none
  | .badFcsFrame .. => .none
  | .priorityFlowControlFrame .. => .none

/-- The instruction as fetched (R65): 32 bits, or the halfword zero-extended. -/
def Instr.raw (i : Instr) : BitVec 32 :=
  match encode i with
  | .w32 w => w
  | .w16 h => h.setWidth 32
  | .none => 0#32

/-- The bytes an instruction takes up (R51). -/
def Instr.len (i : Instr) : Nat :=
  match encode i with
  | .w32 _ => 4
  | .w16 _ => 2
  | .none => 0

end Sys2Proof
end

