-- ==== Sys2Proof/Machine/Contexts.lean ====
section
/-! DEFINITION. Saving an actor to its context save area and reloading it (R224 to R227). -/

namespace Sys2Proof.Machine

/-- Reads a word at an offset of a save area. -/
def State.areaWord (s : State) (c : Nat) (area : Word) (asid : BitVec 16) (off : Nat) : Word :=
  BitVec.ofNat 64 (s.areaLoad c area asid off 8)

/-- Bytes of a save area for a PRIV value (R225). -/
def areaSize (priv : Word) : Nat := 0x2A80 + 4096 * bits priv 13 8

/-- Whether PRIV names a region of the scratchpad (R224). -/
def privFits (priv : Word) : Bool := decide (bits priv 5 0 + bits priv 13 8 ≤ 64)

/-- The parts of `n` bytes from an address that lie in one 64 KiB page each. -/
def pageParts (va n : Nat) : List (Nat × Nat) :=
  (List.range (n / 0x10000 + 2)).filterMap fun i =>
    let lo := Nat.max va ((va / 0x10000 + i) * 0x10000)
    let hi := Nat.min (va + n) ((va / 0x10000 + i + 1) * 0x10000)
    if lo < hi then some (lo, hi - lo) else none

/-- Checks a save area for an access of the issuer (R225, R232): a cause and its address. -/
def State.areaFault (s : State) (k : Nat) (area : Word) (size : Nat) (kind : AccKind) (r : Reach) :
    Option (BitVec 10 × Word) :=
  if area.toNat % 64 ≠ 0 then some (0x104#10, area)
  else
    (pageParts area.toNat size).findSome? fun e =>
      let va := BitVec.ofNat 64 e.1
      match s.check (keyCore k) (s.slot k).asid (s.slot k).cls kind r va e.2 8 with
      | .error e => some (e, va)
      | .ok x =>
        if x.tt ≠ 0 then some (0x106#10, va)
        else if s.retiredAt x.key then some (0x382#10, va)
        else none

/-- Reads `n` bytes of a save area as their owner answers: a held one makes the step wait, and each word is resolved
(R358, R362). -/
def State.areaOpen (s : State) (c : Nat) (area : Word) (asid : BitVec 16) (n : Nat) : State :=
  (pageParts area.toNat n).foldl (fun s r =>
    match s.placeOf c asid (BitVec.ofNat 64 r.1) with
    | some key => (s.open key r.2).resolve key r.2
    | none => s) s

/-- The first poisoned word of `n` words of a save area. -/
def State.areaPoison (s : State) (c : Nat) (area : Word) (asid : BitVec 16) (off n : Nat) : Option Word :=
  (List.range n).findSome? fun i =>
    let va := area + BitVec.ofNat 64 (off + 8 * i)
    match s.placeOf c asid va with
    | some key => if s.poisoned key 8 then some va else none
    | none => none

/-- Copies one 8-byte word with its poison mark (R142, R362, R367). -/
def State.copyWord (s : State) (src dst : Nat) : State :=
  let s' := ((s.open dst 8).eccClear dst 8).storeLE dst 8 (s.loadLE src 8)
  if s.poisoned src 8 then s'.mark [dst / 8] else s'

/-- Copies the private region between the scratchpad and its image (R224, R225). -/
def State.copyPriv (s : State) (c : Nat) (area : Word) (asid : BitVec 16) (priv : Word) (out : Bool) : State :=
  (List.range (512 * bits priv 13 8)).foldl (fun s i =>
    let here := s.own (windowPa c (4096 * bits priv 5 0 + 8 * i))
    match s.placeOf c asid (area + BitVec.ofNat 64 (0x2A80 + 8 * i)) with
    | some key => if out then s.copyWord here key else s.copyWord key here
    | none => s) s

/-- Inserts a held message by its arrival. -/
def insertHeld (h : Held) : List Held → List Held
  | [] => [h]
  | x :: xs => if h.arr < x.arr then h :: x :: xs else x :: insertHeld h xs

/-- The held messages of a slot in arrival order (R225). -/
def Slot.heldAll (sl : Slot) : List Held :=
  (sl.mb.toList.flatMap Mailbox.held).foldl (fun l h => insertHeld h l) []

/-- The words of a message. -/
def Msg.words (m : Msg) : List Word := m.hdr0 :: m.hdr1 :: m.pay.toList

/-- Packs two 32-bit registers into a word. -/
def pack32 (lo hi : BitVec 32) : Word := hi ++ lo

/-- Pairs of 32-bit registers as words. -/
def pairWords : List (BitVec 32) → List Word
  | a :: b :: l => pack32 a b :: pairWords l
  | [a] => [pack32 a 0]
  | [] => []

/-- BEADS (R94). -/
def Slot.beadsWord (sl : Slot) : Word :=
  fields [(sl.beads[3].toNat, 18), (sl.beads[2].toNat, 12), (sl.beads[1].toNat, 6), (sl.beads[0].toNat, 0)]

/-- The fault CSRs 0x040 to 0x047 (R211). -/
def Slot.faultWords (sl : Slot) : List Word :=
  [sl.fcause, sl.fpc.setWidth 64, sl.finst.setWidth 64, sl.faddr, sl.feng, sl.emu, sl.epc.setWidth 64,
   sl.einst.setWidth 64]

/-- Whether an activation is blocked. -/
def Phase.isBlocked : Phase → Bool
  | .blocked _ => true
  | _ => false

/-- The majors of the expansions of the 16-bit instructions, from OP 1 on (R67). -/
def shortMajors : List Nat := [0x00, 0x01, 0x06, 0x07, 0x08, 0x02, 0x04, 0x0D, 0x0E, 0x09, 0x0A, 0x0B, 0x00, 0x01, 0x10, 0x10, 0x24, 0x26, 0x24, 0x26,
  0x25, 0x26, 0x19, 0x21]

/-- The major of an instruction as fetched: its OP field, or for a 16-bit one that of its expansion (R54, R66, R67). -/
def majorOf (inst : BitVec 32) : Nat := if bit inst 0 then bits inst 7 1 else shortMajors.getD (bits inst 5 1 - 1) 0

/-- Address, value and target of a wait (R225). -/
def State.waitWords (s : State) (w : Wait) : Nat × Word × Nat :=
  match w with
  | .word _ va _ v d => (va.toNat, v, d.toBits.toNat)
  | .woken v d => (0, v, d.toBits.toNat)
  | .barrier h t d => (h.toNat, t.setWidth 64, d.toBits.toNat)
  | .access id =>
    let sent := (s.net.reqs.find? fun r => r.id = id).map Request.va
    (((sent.orElse fun _ => (s.net.answers.find? fun r => r.id = id).map Answer.va).getD 0).toNat, 0, 0)
  | .post _ va _ _ => (va.toNat, 0, 0)
  | _ => (0, 0, 0)

/-- The image of a blocked wait (R225); where its words stand is the model's (log 26). -/
def State.waitImage (s : State) (sl : Slot) : List Word :=
  match sl.phase with
  | .blocked w =>
    let e := s.waitWords w
    [BitVec.ofNat 64 (majorOf sl.inst), BitVec.ofNat 64 e.1, e.2.1, BitVec.ofNat 64 e.2.2, 0, 0]
  | _ => List.replicate 6 0

/-- The image of entry `i` of RGSET of a context (R207, R225): its start, and V, W and its length (log 26). -/
def State.guardImage (s : State) (c : Nat) (id : BitVec 32) (i : Nat) : List Word :=
  match (s.core c).guards.find? fun g => decide (g.idx = i) && g.cmd.isNone && decide (g.core = c) &&
      decide (g.ctxid = id) with
  | some g =>
    let start := match g.space with
      | .phys => paOf g.lo
      | .virt _ => g.lo
    [BitVec.ofNat 64 start, fields [(1, 63), (g.write.toNat, 62), (g.len, 0)]]
  | none => [0, 0]

/-- The reservations of a slot (R225): tag, and the mailbox that holds its reply, if any (log 26). -/
def Slot.resvImage (sl : Slot) : List Word :=
  (List.range 8).map fun i => match sl.resv[i]? with
    | some t =>
      let mb := (List.finRange 4).find? fun b => (sl.mb[b]).held.any fun h => h.entry = .reserved t
      fields [(t.toNat, 0), ((mb.map Fin.val).getD 0, 16)]
    | none => 0

/-- The words of a save area of slot `k` up to the handles, and its windows (R225). -/
def State.saveImage (s : State) (k : Nat) : List (Nat × List Word) :=
  let sl := s.slot k
  let c := keyCore k
  let w0 := fields [(0x01564153, 0), ((sl.phase ≠ .idle : Bool).toNat, 32), (sl.frozen.toNat, 33),
    (sl.phase.isBlocked.toNat, 34), (sl.cls.toNat, 40), (sl.asid.toNat, 48)]
  [(0x000, [w0, sl.desc, sl.gen, fields [(sl.ctxid.toNat, 0), (sl.jobcol.toNat, 32), (sl.granted, 40)]]),
   (0x038, [sl.priv]),
   (0x040, [sl.pc.setWidth 64, sl.used.setWidth 64, sl.budget.setWidth 64, sl.flags.setWidth 64,
     sl.trclim.setWidth 64, sl.step.setWidth 64, sl.rescmode.setWidth 64, sl.lcmap]),
   (0x080, [sl.beadsWord, sl.predWord] ++ pairWords sl.lb.toList ++ pairWords sl.i.toList ++ [0, 0]),
   (0x0C0, pairWords sl.c.toList), (0x100, sl.s.toList.set 0 0), (0x300, sl.q.toList),
   (0x340, sl.l :: sl.a.toList ++ [0]), (0x380, [sl.hdr0, sl.hdr1]), (0x390, sl.faultWords),
   (0x3D0, s.waitImage sl),
   (0x400, (List.finRange 4).flatMap fun i =>
     let m := sl.mb[i]
     let mask (j : Nat) : Word := m.mask.extractLsb' (64 * j) 64
     [mask 0, mask 1, mask 2, mask 3, m.stat, m.arrivals]),
   (0x4C0, sl.resvImage), (0x500, (List.range 16).flatMap fun i => s.guardImage c sl.ctxid i),
   (0x600, sl.t.toList.flatMap fun t => (List.range 4).map fun j => t.extractLsb' (64 * j) 64),
   (0x2A00, sl.pw.toList.flatMap fun e => [e.1, e.2])]

/-- Types whose vector entries name slot `n` (R173). -/
def Core.typesFor (co : Core) (n : Nat) : List Nat :=
  (List.range 256).filter fun t =>
    let e := co.vect[ix 256 t]
    bit e 63 && !bit e 55 && decide (bits e 62 60 = n)

/-- Saves the actor of slot `k` and empties the slot (R224, R225, R173); an area that is new to it has an empty ring
(log 95). -/
def State.evict (s : State) (k : Nat) (area : Word) (asid : BitVec 16) : State :=
  let c := keyCore k
  let n := (keySlot k).val
  let s := (s.release k).yieldCore k
  let sl := s.slot k
  let held := sl.heldAll.map Held.msg
  let s := (s.saveImage k).foldl (fun s e => s.areaWords c area asid e.1 e.2) s
  let s := s.areaStore c area asid 0x034 4 held.length
  let s := if sl.rings.contains (area, asid) then s
    else (s.areaStore c area asid 0x02C 4 0).areaStore c area asid 0x030 4 0
  let s := s.areaWords c area asid 0xA00 (held.flatMap Msg.words)
  let s := s.copyPriv c area asid sl.priv true
  let types := (s.core c).typesFor n
  let s := s.modCore c fun co =>
    { co with
      vect := co.vect.mapFinIdx fun t v _ => if types.contains t then v ||| (1#64 <<< 55) else v
      ctxs := co.ctxs.map fun x =>
        if x.id = sl.ctxid then ⟨x.id, .saved area asid, types, sl.launch, sl.exiting, sl.retries, sl.rings⟩ else x }
  s.setSlot k { Slot.reset with pw := .replicate 8 (0, 0) }

/-- Words of a save area. -/
def State.areaList (s : State) (c : Nat) (area : Word) (asid : BitVec 16) (off n : Nat) : List Word :=
  (List.range n).map fun i => s.areaWord c area asid (off + 8 * i)

/-- A 32-bit register of a save area. -/
def State.area32 (s : State) (c : Nat) (area : Word) (asid : BitVec 16) (off : Nat) : BitVec 32 :=
  BitVec.ofNat 32 (s.areaLoad c area asid off 4)

/-- A mailbox of a save area with its messages (R190, R225). -/
def State.areaMailbox (s : State) (c : Nat) (area : Word) (asid : BitVec 16) (msgs : List Msg) (i : Nat) : Mailbox :=
  let stat := s.areaWord c area asid (0x400 + 48 * i + 32)
  let mine := ((List.range msgs.length).zip msgs).filter fun e => e.2.mb.val = i
  ⟨bit stat 15, bit stat 14, stat.extractLsb' 7 7, maskOf (s.areaList c area asid (0x400 + 48 * i) 4),
   stat.extractLsb' 32 32,
   mine.map fun e => ⟨e.2, s.cycle - (msgs.length - e.1), entryOf e.2⟩,
   s.areaWord c area asid (0x400 + 48 * i + 40)⟩

/-- A vector of `n` words, missing ones zero. -/
def vecOf (n : Nat) (l : List Word) : Vector Word n := Vector.ofFn fun i => l.getD i.val 0

/-- The slot that a save area describes (R225, R226), each field with the bits that it has (R5): an unfinished
activation is ready again. The entry of a
running emulation routine is that of the binding that EMU names (R218, R219). -/
def State.areaSlot (s : State) (c : Nat) (area : Word) (asid : BitVec 16) (x : Ctx) : Slot :=
  let w (off : Nat) : Word := s.areaWord c area asid off
  let msgs := s.areaMsgs c area asid
  let beads := w 0x080
  let preds := w 0x088
  let mbs := (List.range 4).map fun i => s.areaMailbox c area asid msgs i
  let hdr0 := w 0x380 &&& headMask
  let mb := mbs.getD (bits hdr0 9 8) .reset
  let unfinished := bit (w 0) 32
  { Slot.reset with
    status := .live
    cls := (w 0).extractLsb' 40 2
    asid := (w 0).extractLsb' 48 16
    desc := w 0x008
    gen := w 0x010
    ctxid := x.id
    jobcol := (w 0x018).extractLsb' 32 6
    granted := bits (w 0x018) 47 40
    priv := w 0x038 &&& 0x3F3F#64
    pc := evenPc ((w 0x040).setWidth 52)
    used := (w 0x048).setWidth 32
    budget := (w 0x050).setWidth 32
    flags := (w 0x058).setWidth 7
    trclim := (w 0x060).setWidth 16
    step := (w 0x068).setWidth 32
    rescmode := (w 0x070).setWidth 1
    lcmap := w 0x078 &&& 0xBBBBBBBBBBBBBBBB#64
    beads := Vector.ofFn fun i : Fin 4 => beads.extractLsb' (6 * i.val) 6
    p := Vector.ofFn fun i : Fin 8 => bit preds i.val
    lb := Vector.ofFn fun i : Fin 4 => s.area32 c area asid (0x090 + 4 * i.val)
    i := Vector.ofFn fun i : Fin 4 => s.area32 c area asid (0x0A0 + 4 * i.val)
    c := Vector.ofFn fun i : Fin 16 => s.area32 c area asid (0x0C0 + 4 * i.val)
    s := vecOf 64 (s.areaList c area asid 0x100 64)
    q := vecOf 8 (s.areaList c area asid 0x300 8)
    l := w 0x340
    a := vecOf 6 (s.areaList c area asid 0x348 6)
    hdr0 := hdr0
    hdr1 := w 0x388
    fcause := w 0x390 &&& 0x80000000F8FF03FF#64
    fpc := (w 0x398).setWidth 52
    finst := (w 0x3A0).setWidth 32
    faddr := w 0x3A8
    feng := w 0x3B0 &&& 0xFFF003FF#64
    emu := w 0x3B8 &&& 0x03FF0007#64
    epc := (w 0x3C0).setWidth 52
    einst := (w 0x3C8).setWidth 32
    emuEntry := match s.emuBinding { Slot.reset with desc := w 0x008, gen := w 0x010 }
        (bits (w 0x3B8) 2 1, bits (w 0x3B8) 25 16) with
      | some b => b.2.2
      | none => evenPc ((w 0x040).setWidth 52)
    mb := Vector.ofFn fun i : Fin 4 => mbs.getD i.val .reset
    resv := ((List.range 8).map fun i => (w (0x4C0 + 8 * i)).setWidth 16).filter fun t => t ≠ 0#16
    t := Vector.ofFn fun i : Fin 32 => maskOf (s.areaList c area asid (0x600 + 32 * i.val) 4)
    pw := Vector.ofFn fun i : Fin 8 => (pwWord true (w (0x2A00 + 16 * i.val)), pwWord false (w (0x2A08 + 16 * i.val)))
    frozen := bit (w 0) 33
    phase := if unfinished then .ready else .idle
    basePrio := s.typePrio c (bits hdr0 7 0)
    prio := s.typePrio c (bits hdr0 7 0)
    since := s.cycle
    arrived := s.cycle
    keyed := if unfinished ∧ mb.ord ∧ bits hdr0 55 52 ≠ 1 ∧ !(2 ≤ bits hdr0 55 52 ∧ bits hdr0 55 52 ≤ 4) then
      some (ix 4 (bits hdr0 9 8)) else none
    launch := x.launch
    exiting := x.exiting
    retries := x.retries
    rings := x.allRings area asid }

/-- Reloads an evicted actor into an empty slot (R226): the slot, the private region, the vector entries,
the context map, then the ring. -/
def State.restore (s : State) (c n : Nat) (area : Word) (asid : BitVec 16) (x : Ctx) : State :=
  let k := slotKey c n
  let sl := s.areaSlot c area asid x
  let s := s.copyPriv c area asid sl.priv false
  let s := (s.setSlot k sl).modCore c fun co =>
    { co with
      vect := co.vect.mapFinIdx fun t v _ =>
        if bit v 55 ∧ x.types.contains t then
          (v &&& ~~~(fields [(1, 55), (7, 60)])) ||| fields [(n, 60)]
        else v
      ctxs := co.ctxs.map fun y => if y.id = x.id then ⟨x.id, .slot (ix 8 n), [], none, false, [], []⟩ else y }
  (s.refresh k).ringDrain k

end Sys2Proof.Machine
end

