-- ==== Sys2Proof/Machine/Fetch.lean ====
section
/-! DEFINITION. Fetching the bytes of an instruction (R51, R52, R138) and the fate of bits that are no
instruction (R64, R65, R85). -/

namespace Sys2Proof.Machine

/-- What a fetch gives: a fault and its address, or the bits, their bytes and the state with its TLB. -/
inductive Fetched where
  | fault (cause : BitVec 10) (addr : Word)
  | bytes (s : State) (raw : BitVec 32) (bs : List Byte)
  deriving DecidableEq, Repr

/-- Reads one halfword of an instruction as its owner answers (R358, R366, R399): a retired frame, a node that is
lost and poison refuse it (log 73). -/
def State.readHalf (s : State) (x : Xlate) (key : Nat) : Except (BitVec 10) (State × List Byte) :=
  if s.retiredAt key then .error 0x382#10
  else if s.unreachable key then .error 0x3C1#10
  else (s.open key 2).readOp key 2 x.tol x.nan

/-- Translates an address of slot `k` for a fetch (R138). -/
def State.fetchPlace (s : State) (k : Nat) (pc : BitVec 52) : Except (BitVec 10) Xlate :=
  s.translate (keyCore k) (s.slot k).asid (s.slot k).cls .fetch (pc.setWidth 64)

/-- Fetches one halfword at an address of slot `k` (R138): its page, and its bytes. -/
def State.fetchHalf (s : State) (k : Nat) (pc : BitVec 52) : Except (BitVec 10) (State × Xlate × List Byte) :=
  match s.fetchPlace k pc with
  | .error e => .error e
  | .ok x => ((s.fillTlb (keyCore k) x).readHalf x x.key).map fun r => (r.1, x, r.2)

/-- FINST's source after a fetch (R65). -/
def State.fetched (s : State) (k : Nat) (raw : BitVec 32) : State :=
  s.modSlot k fun sl => { sl with inst := raw }

/-- A fetch fault, taken at the instruction's own address (R52). -/
def State.fetchFault (s : State) (k : Nat) (cause : BitVec 10) (addr : Word) : State :=
  let s := (s.sawPoison (keyCore k) (s.slot k).asid cause addr).fetched k (Config.unfetched s.tick)
  s.orWait k (s.takeTrap k cause addr none)

/-- The halfword that holds these two bytes is the first half of a 32-bit instruction (R51). -/
def longHalf (lo : List Byte) : Bool := leNat lo % 2 = 1

/-- The second halfword of an instruction: in the page of the first it needs no translation of its own. -/
def State.fetchNext (s : State) (k : Nat) (pc : BitVec 52) (x : Xlate) : Except (BitVec 10) (State × List Byte) :=
  if pc.toNat % 0x10000 = 0xFFFE then (s.fetchHalf k (pc + 2)).map fun r => (r.1, r.2.2)
  else s.readHalf x (x.key + 2)

/-- Fetches the instruction at the PC of slot `k`, two or four bytes by bit 0 (R51, R52). -/
def State.fetch (s : State) (k : Nat) : Fetched :=
  let pc := (s.slot k).pc
  match s.fetchHalf k pc with
  | .error e => .fault e (pc.setWidth 64)
  | .ok (s, x, lo) =>
    if !longHalf lo then .bytes s (BitVec.ofNat 32 (leNat lo)) lo
    else
      match s.fetchNext k pc x with
      | .error e => .fault e ((pc + 2).setWidth 64)
      | .ok (s, hi) => .bytes s (BitVec.ofNat 32 (leNat (lo ++ hi))) (lo ++ hi)

/-- The features that gate a 32-bit major, or one of its function values F of formats A and T (R102). -/
def majorFeats (op fa ft : Nat) : List Nat :=
  if op = 0x1C ∨ op = 0x1D ∨ op = 0x20 ∨ op = 0x30 ∨ op = 0x31 then [0, 2]
  else if op = 0x29 ∧ fa = 7 then [0, 3]
  else if op = 0x42 ∧ ft = 4 then [8, 40]
  else if op = 0x4E ∧ ft < 4 then [32, 33]
  else if op = 0x4E ∧ ft < 6 then [32, 34]
  else if op = 0x4F ∧ ft = 4 then [32, 40]
  else if op < 0x40 then [0]
  else if op < 0x48 then [8]
  else if op < 0x52 then [32]
  else if op = 0x53 then [48, 2]
  else if op < 0x55 then [48]
  else if op < 0x59 then [49]
  else if op < 0x5C then [50]
  else [0]

/-- The feature that makes bits an undefined opcode before any other check (R65, R85). -/
def State.gate (s : State) (raw : BitVec 32) : Option Nat :=
  let op := bits raw 7 1
  let feats :=
    if bit raw 0 then (if op < 0x60 then majorFeats op (bits raw 31 29) (bits raw 25 23) else [])
    else if bits raw 5 1 = 0 ∨ 0x18 < bits raw 5 1 then [] else [1, 0]
  feats.find? fun f => !s.hasFeat f

/-- The emulation binding of a reserved opcode (R64, R79). -/
def emuOf (raw : BitVec 32) : EmuKey := if bit raw 0 then (0, bits raw 7 1) else (1, bits raw 5 1)

/-- UNASSIGNED_ENCODING (R64, R65, R85): bits that are no instruction trap precisely, or enter the
emulation routine that the object binds. -/
def execUnassignedEncoding (raw : BitVec 32) (cause : BitVec 10) (s : State) :
    Host.Outcome State Fault Refusal :=
  match s.cur with
  | none => .next s
  | some k =>
    match s.gate raw with
    | some f => s.trapStep k 0x001#10 (some (2, f))
    | none => s.trapStep k cause (if cause = 0x001#10 then some (emuOf raw) else none)

/-- Physical address of the code, of the page tables and of the root table of `State.loaded`. -/
abbrev loadBase : Nat := 0x10000000

/-- A state in which the next step fetches these bytes (log 5): what a launch of one actor leaves on
core 0, slot 0, in address space 0: a running activation at virtual address 0x10000, and a page mapped
for reading, writing and fetching. -/
def State.loaded (s : State) (bs : List Byte) : State :=
  let ptr (n : Nat) : Nat := loadBase + n + 1
  let s := s.storeLE (s.own loadBase) 8 (ptr 0x80000)
  let s := s.storeLE (s.own (loadBase + 0x80000)) 8 (ptr 0x90000)
  let s := s.storeLE (s.own (loadBase + 0x90000)) 8 (ptr 0x91000)
  let s := s.storeLE (s.own (loadBase + 0x91000)) 8 (ptr 0x92000)
  let s := s.storeLE (s.own (loadBase + 0x92008)) 8 (s.own (loadBase + 0xA0000) + 0x1F)
  let s := s.store (s.own (loadBase + 0xA0000)) bs
  let s := s.modCore 0 fun c =>
    { c with astab := BitVec.ofNat 64 loadBase, running := some 0, tlb := [],
             ctxs := [⟨1, .slot 0, [], none, false, [], []⟩] }
  let s := s.setSlot 0 { Slot.reset with
    status := .live, cls := 2, pc := 0x10000, ctxid := 1, phase := .running, prio := 2 }
  { s with mover := .core 0 }

end Sys2Proof.Machine
end

