-- ==== Sys2Proof/Machine/System.lean ====
section
/-! DEFINITION. The system majors (R229 to R233): control and status registers (R92 to R94), SYS, TLBI,
and CTX but for CTX.preempt. -/

namespace Sys2Proof.Machine

/-! ### Control and status registers (R92 to R94, R100, R102, R185, R211, R213, R216, R224, R233) -/

/-- SLOTINFO of slot `k` (R94). -/
def State.slotInfo (s : State) (k : Nat) : Word :=
  fields [(s.module.nodeX.toNat, 56), (s.module.nodeY.toNat, 48), (keyCore k, 36),
    ((s.slot k).prio.toNat, 6), ((s.slot k).cls.toNat, 4), ((keySlot k).val, 0)]

/-- Reads a CSR as slot `k` does. -/
def State.csrRead (s : State) (k : Nat) (n : Nat) : Word :=
  let sl := s.slot k
  let co := s.core (keyCore k)
  if n = 0x000 then sl.flags.setWidth 64
  else if n = 0x001 then sl.trclim.setWidth 64
  else if n = 0x002 then sl.step.setWidth 64
  else if n = 0x003 then sl.rescmode.setWidth 64
  else if n = 0x004 then sl.beadsWord
  else if n = 0x005 then s.slotInfo k
  else if n = 0x006 then BitVec.ofNat 64 s.cycle
  else if n = 0x007 then sl.used.setWidth 64
  else if 0x010 ≤ n ∧ n ≤ 0x013 then (sl.lb[ix 4 (n - 0x010)]).setWidth 64
  else if n = 0x014 then sl.lcmap
  else if 0x018 ≤ n ∧ n ≤ 0x01B then (sl.i[ix 4 (n - 0x018)]).signExtend 64
  else if 0x020 ≤ n ∧ n ≤ 0x027 then s.module.feat[ix 8 (n - 0x020)]
  else if 0x030 ≤ n ∧ n ≤ 0x03F then (sl.c[ix 16 (n - 0x030)]).signExtend 64
  else if 0x040 ≤ n ∧ n ≤ 0x047 then sl.faultWords.getD (n - 0x040) 0
  else if n = 0x800 then sl.asid.setWidth 64
  else if n = 0x801 then sl.ctxid.setWidth 64
  else if n = 0x802 then sl.jobcol.setWidth 64
  else if n = 0x803 then sl.budget.setWidth 64
  else if n = 0x804 then sl.priv
  else if n = 0xC00 then co.cpol.setWidth 64
  else if n = 0xC01 then co.trapdst.setWidth 64
  else if n = 0xC02 then co.astab
  else 0

/-- A launcher that renames itself (R227). -/
def Launcher.rename (c : Nat) (old id : BitVec 32) : Launcher → Launcher
  | .slot core n ctxid cls => .slot core n (if core = c ∧ ctxid = old then id else ctxid) cls
  | l => l

/-- The launches and the detectors of a context follow its new name: their JOIN and QUIESCED find it (R197, R202). -/
def State.renameLauncher (s : State) (c : Nat) (old id : BitVec 32) : State :=
  let launch (l : Launch) : Launch := { l with launcher := l.launcher.rename c old id }
  let sup (u : Sup) : Sup := match u.op with
    | .preempt scope anchor colour count again reqs =>
      { u with op := .preempt scope anchor colour count (again.map fun e => (e.1, launch e.2)) reqs }
    | _ => u
  let s := { s with dies := s.dies.map fun (d : Die) => { d with launches := d.launches.map launch } }
  (s.modNet fun n => { n with sups := n.sups.map sup }).modModule fun m =>
    { m with detect := m.detect.map fun (x : Detector) => if x.core = c ∧ x.ctxid = old then { x with ctxid := id } else x }

/-- A write of CTXID renames the context's entry, its guards, launches and detectors, unless another entry of the core
holds the value (R227). A command that is outstanding carries the old name (log 89). -/
def State.renameCtx (s : State) (k : Nat) (id : BitVec 32) : State :=
  let c := keyCore k
  let old := (s.slot k).ctxid
  if (s.ctx c id).isSome then s
  else
    let s := s.release k
    let s := s.modCore c fun co =>
      { co with ctxs := co.ctxs.map fun e => if e.id = old then { e with id := id } else e }
    let rename (g : Guard) : Guard := if g.core = c ∧ g.ctxid = old then { g with ctxid := id } else g
    let s := { s with cores := s.cores.map fun (e : Nat × Core) => (e.1, { e.2 with guards := e.2.guards.map rename }) }
    let s := s.renameLauncher c old id
    s.modSlot k fun sl => { sl with ctxid := id }

/-- The fault CSRs after a write of their RW fields (R211). -/
def Slot.writeFault (sl : Slot) (n : Nat) (v : Word) : Slot :=
  if n = 0x040 then { sl with fcause := setField sl.fcause 63 63 (bits v 63 63) }
  else if n = 0x044 then { sl with feng := setField sl.feng 31 24 (bits v 31 24) }
  else if n = 0x046 then { sl with epc := v.setWidth 52 }
  else if n = 0x047 then { sl with einst := v.setWidth 32 }
  else sl

/-- A slot after a write of one of its own CSRs, under each field's access code (R4, R93). -/
def Slot.writeCsr (sl : Slot) (n : Nat) (v : Word) : Slot :=
  if n = 0x000 then { sl with flags := sl.flags &&& v.setWidth 7 }
  else if n = 0x001 then { sl with trclim := v.setWidth 16 }
  else if n = 0x002 then { sl with step := v.setWidth 32 }
  else if n = 0x003 then { sl with rescmode := v.setWidth 1 }
  else if 0x010 ≤ n ∧ n ≤ 0x013 then { sl with lb := sl.lb.set (ix 4 (n - 0x010)) (v.setWidth 32) }
  else if n = 0x014 then { sl with lcmap := v &&& 0xBBBBBBBBBBBBBBBB#64 }
  else if 0x018 ≤ n ∧ n ≤ 0x01B then { sl with i := sl.i.set (ix 4 (n - 0x018)) (v.setWidth 32) }
  else if 0x030 ≤ n ∧ n ≤ 0x03F then { sl with c := sl.c.set (ix 16 (n - 0x030)) (v.setWidth 32) }
  else if 0x040 ≤ n ∧ n ≤ 0x047 then sl.writeFault n v
  else if n = 0x800 then { sl with asid := v.setWidth 16 }
  else if n = 0x802 then { sl with jobcol := v.setWidth 6 }
  else if n = 0x803 then { sl with budget := v.setWidth 32 }
  else if n = 0x804 then { sl with priv := v &&& 0x3F3F#64 }
  else sl

/-- Writes a CSR as slot `k` does. -/
def State.csrWrite (s : State) (k : Nat) (n : Nat) (v : Word) : State :=
  if n = 0x801 then s.renameCtx k (v.setWidth 32)
  else if n = 0xC00 then s.modCore (keyCore k) fun co => { co with cpol := v.setWidth 24 }
  else if n = 0xC01 then s.modCore (keyCore k) fun co => { co with trapdst := v.setWidth 22 }
  else if n = 0xC02 then
    s.modCore (keyCore k) fun co => { co with astab := BitVec.ofNat 64 (bits v 47 16 * 0x10000) }
  else s.modSlot k fun sl => sl.writeCsr n v

/-- What decode asks of a CSR access (R92): supervisor numbers, and writes from 0x800 on. -/
def csrNeed (write : Bool) (n : BitVec 12) : Need :=
  { feats := [0], priv := decide (0xC00 ≤ n.toNat) || (write && decide (0x800 ≤ n.toNat)) }

/-- CSR_RD (R229). -/
def execCsrRd (d : Dst) (csr : BitVec 12) (s : State) : Host.Outcome State Fault Refusal :=
  s.run (csrNeed false csr) 4 1 0 fun k => s.gives k d (s.csrRead k csr.toNat)

/-- A CSR write without a destination (R229): `f` makes the new value from the old and from D. -/
def State.csrPut (s : State) (d : Src) (csr : BitVec 12) (f : Word → Word → Word) :
    Host.Outcome State Fault Refusal :=
  s.run (csrNeed true csr) 4 1 0 fun k =>
    .next (s.csrWrite k csr.toNat (f (s.csrRead k csr.toNat) ((s.slot k).read d)))

/-- CSR_WR (R229). -/
def execCsrWr (d : Src) (csr : BitVec 12) (s : State) : Host.Outcome State Fault Refusal :=
  s.csrPut d csr fun _ v => v

/-- CSR_SET (R229). -/
def execCsrSet (d : Src) (csr : BitVec 12) (s : State) : Host.Outcome State Fault Refusal :=
  s.csrPut d csr fun old v => old ||| v

/-- CSR_CLR (R229). -/
def execCsrClr (d : Src) (csr : BitVec 12) (s : State) : Host.Outcome State Fault Refusal :=
  s.csrPut d csr fun old v => old &&& ~~~v

/-- CSR_SWP (R229): D is read, then written with the old value. -/
def execCsrSwp (d : Dst) (csr : BitVec 12) (s : State) : Host.Outcome State Fault Refusal :=
  s.run (csrNeed true csr) 4 1 0 fun k =>
    let old := s.csrRead k csr.toNat
    (s.csrWrite k csr.toNat ((s.slot k).read (dstSrc d))).gives k d old

/-! ### SYS (R221, R223, R230) -/

/-- Marks the launch of a child as committed (R221). -/
def State.commit (s : State) (m : Membership) : State :=
  s.modDie m.die fun u =>
    { u with launches := u.launches.map fun l => if l.id = m.id then { l with committed := true } else l }

/-- SYS_COMMIT (R230). -/
def execSysCommit (d : Dst) (s : State) : Host.Outcome State Fault Refusal :=
  s.run { feats := [0] } 4 2 0 fun k =>
    match (s.slot k).launch with
    | none => (s.release k).gives k d stNOOBJ
    | some m => ((s.release k).commit m).gives k d 0

/-- SYS_ERET (R230). -/
def execSysEret (s : State) : Host.Outcome State Fault Refusal :=
  s.run { feats := [0] } 4 2 0 fun k =>
    if !bit (s.slot k).emu 0 then .trap 0x011#10 0
    else .jump (s.modSlot k Slot.eret) (s.slot k).eret.pc

/-- What SYS.ckpt records of a streaming colour (R223). -/
def Colour.checkpoint (c : Colour) (a : Word) (asid : BitVec 16) : Colour :=
  { c with restart := BitVec.ofNat 64 (bits a 51 6 * 64), ckasid := asid, epoch := c.epoch + 1 }

/-- SYS_CKPT (R223, R230): D is read as the address, then written. -/
def execSysCkpt (d : Dst) (s : State) : Host.Outcome State Fault Refusal :=
  s.run { feats := [0] } 4 2 0 fun k =>
    let sl := s.slot k
    let a := sl.read (dstSrc d)
    if a.toNat % 64 ≠ 0 then .trap 0x104#10 a
    else if !(s.colour sl.jobcol).strm then s.gives k d stDENIED
    else ((s.release k).modColour sl.jobcol fun c => c.checkpoint a sl.asid).gives k d 0

/-! ### Supervisor operations that wait (R224, R231) -/

/-- The operation that slot `k` has in progress. -/
def State.supOf (s : State) (k : Nat) : Option Sup :=
  s.net.sups.find? fun u => u.core = keyCore k ∧ u.ctxid = (s.slot k).ctxid

/-- An operation of slot `k` leaves. -/
def State.dropSup (s : State) (k : Nat) : State :=
  s.modNet fun n =>
    { n with sups := n.sups.filter fun u => !(decide (u.core = keyCore k) && decide (u.ctxid = (s.slot k).ctxid)) }

/-- Enters an operation of slot `k`, which waits for it. -/
def State.startSup (s : State) (k : Nat) (op : SupOp) : Act :=
  .wait (s.bump.modNet fun n =>
    { n with sups := n.sups ++ [⟨s.nextId, keyCore k, (s.slot k).ctxid, op, none⟩] }) (.supervisor s.nextId)

/-- An instruction that waits for an operation: its result once it is there, else the wait goes on;
`start` begins one where there is none. -/
def State.supAct (s : State) (k : Nat) (d : Dst) (start : Act) : Act :=
  match s.supOf k with
  | none => start
  | some u =>
    match u.result with
    | some v => (s.dropSup k).gives k d v
    | none => .wait s (.supervisor u.id)

/-- Gives an operation its result; one whose issuer has gone ends. -/
def State.resolveSup (s : State) (id : Nat) (v : Word) : State :=
  let done (u : Sup) : Option Sup :=
    if u.id = id then (if !s.present u.core u.ctxid then none else some { u with result := some v })
    else some u
  s.modNet fun n => { n with sups := n.sups.filterMap done }

/-! ### TLBI (R139, R231) -/

/-- Which translations a TLBI removes: an ASID and a range of addresses, each absent for all. -/
structure Purge where
  asid : Option (BitVec 16)
  lo   : Nat
  hi   : Nat
  deriving DecidableEq, Repr

/-- Whether it removes a TLB entry. -/
def Purge.hits (p : Purge) (e : TlbEntry) : Bool :=
  (p.asid.all fun a => decide (a = e.asid)) && decide (e.page * 2 ^ e.bits < p.hi) &&
    decide (p.lo < (e.page + 1) * 2 ^ e.bits)

/-- Whether `n` bytes at an address were translated at core `c` through a removed entry: they meet the
range, or the page of an entry of the core that is removed. -/
def Purge.meets (p : Purge) (s : State) (c : Nat) (asid : BitVec 16) (va n : Nat) : Bool :=
  (p.asid.all fun a => decide (a = asid)) &&
    (overlap p.lo (p.hi - p.lo) va n ||
      (s.core c).tlb.any fun e =>
        p.hits e && decide (e.asid = asid) && overlap (e.page * 2 ^ e.bits) (2 ^ e.bits) va n)

/-- Whether an access was translated through a removed entry. -/
def Purge.covers (p : Purge) (s : State) (r : Request) : Bool := p.meets s r.core r.asid r.va.toNat 1

/-- Whether the issue of a command translated a range through a removed entry (R265, R295, R385). -/
def Purge.holds (p : Purge) (s : State) (cmd : Cmd) : Bool :=
  cmd.spans.any fun r => p.meets s ((cmd.issuer.map Issuer.core).getD 0) r.1 r.2.1 r.2.2

/-- What a command still does through the translations of its issue: its number, the part of its accesses, and the
command with the ranges of that part. -/
abbrev Through := (Nat × Nat) × Cmd

/-- The accesses that a Reckoner command has still to make (R385): a query those of its block until its records are
written, and until its banks have been scanned those of its key and value pages. -/
def Query.through (y : Query) : List Through :=
  if bits y.cmd.w[0] 7 0 ≠ 0x59 then [((y.cmd.id, 0), y.cmd)]
  else
    ((y.cmd.id, 1), { y.cmd with spans := y.cmd.spans.take 1 }) ::
      if y.taken && y.scans.all fun z => z.todo.isEmpty then [] else [((y.cmd.id, 0), { y.cmd with spans := y.cmd.spans.drop 1 })]

/-- What a running packet has still to move through its translations: the pages of the pieces that it does not walk
for again (R319, R322). -/
def Packet.through (p : Packet) : List Through :=
  p.work.toList.map fun w => ((p.started.cmd.id, 0), { p.started.cmd with
    spans := (((w.src ++ w.dst).filter fun x => !x.stale).map fun x =>
      (w.asid, x.va / 2 ^ x.x.bits * 2 ^ x.x.bits, 2 ^ x.x.bits)).eraseDups })

/-- The commands whose accesses through translations are not all performed: those of an MXU or a vector unit that have
not started or may start again, the packets that Ladles carry (R319, R322), and those of the Reckoners. -/
def State.translated (s : State) : List Through :=
  let again (l : List Started) := (l.filter fun x => x.cause ≠ 0).map Started.cmd
  (s.cores.flatMap (fun e => e.2.mxuIn ++ again e.2.mxuRun ++ e.2.vecIn ++ again e.2.vecRun)).map (fun c => ((c.id, 0), c)) ++
    s.clusters.toList.flatMap (fun u => u.chans.toList.flatMap fun x => x.cur.toList.flatMap Packet.through) ++
    s.hbm.toList.flatMap fun t => t.queues.flatMap fun q => q.2.flatMap Query.through

/-- Whether the word that a WADDR of slot `k` waits on was translated through a removed entry. -/
def State.waitsThrough (s : State) (p : Purge) (k : Nat) (sl : Slot) : Bool :=
  match sl.phase with
  | .blocked (.word _ va _ _ _) => p.meets s (keyCore k) sl.asid va.toNat 8
  | _ => false

/-- Removes the matching entries of every core. A WADDR that waits through one makes its access again, by a new
walk (R139, R322). -/
def State.purge (s : State) (p : Purge) : State :=
  let again := (s.slots.filter fun e => s.waitsThrough p e.1 e.2).map Prod.fst
  let s := again.foldl State.awaken s
  { s with cores := s.cores.map fun (e : Nat × Core) => (e.1, { e.2 with tlb := e.2.tlb.filter fun t => !p.hits t }) }

/-- The messages and commands on their way that were posted through a translation, with the posting core: word-7
stores and SENDs (R145, R188). -/
def Net.vias (n : Net) : List (Nat × Via) :=
  n.flights.filterMap (fun f => f.via.map fun v => (f.core, v)) ++
    n.posts.filterMap fun x => x.via.map fun v => ((x.poster.map Issuer.core).getD 0, v)

/-- Those whose translation a purge removes (R139). -/
def State.postsThrough (s : State) (p : Purge) : List Nat :=
  (s.net.vias.filter fun e => p.meets s e.1 e.2.asid e.2.va.toNat 8).map fun e => e.2.id

/-- Whether one of them is still on its way. -/
def State.posting (s : State) (id : Nat) : Bool := s.net.vias.any fun e => e.2.id = id

/-- The pieces of a packet whose translations a purge removes and that are walked again for (R231, R306). -/
def Work.rewalk (w : Work) (p : Purge) : Work :=
  let hit (x : Piece) : Piece :=
    if (p.asid.all fun a => decide (a = w.asid)) ∧
        overlap p.lo (p.hi - p.lo) (x.va / 2 ^ x.x.bits * 2 ^ x.x.bits) (2 ^ x.x.bits) then { x with stale := true } else x
  { w with src := w.src.map hit, dst := w.dst.map hit }

/-- Whether the packets that run complete through translations that a purge removes (R322) or walk again for what they
have still to move (R231, R306) is free (log 49). -/
def State.rewalk (s : State) (p : Purge) : State :=
  { s with clusters := s.clusters.map fun u => { u with chans := u.chans.map fun x =>
    { x with cur := x.cur.map fun y =>
      if Config.walksAgain s.tick then { y with work := y.work.map fun w => w.rewalk p } else y } } }

/-- TLBI once its operands are known: the issuer's earlier accesses are performed, the entries leave, and
it waits for the accesses and commands translated through them. -/
def State.tlbi (s : State) (k : Nat) (d : Dst) (p : Purge) : Act :=
  let s := (s.release k).rewalk p
  let ids := (s.net.reqs.filter (p.covers s)).map (fun r => (r.id, 0)) ++
    (s.translated.filter fun e => p.holds s e.2).map Prod.fst ++ (s.postsThrough p).map fun n => (n, 0)
  if ids = [] then (s.purge p).gives k d 0 else (s.purge p).startSup k (.tlbi ids)

/-- The range that TLBI.range names. -/
def purgeRange (a v : Word) : Purge :=
  ⟨some (v.setWidth 16), bits a 51 16 * 0x10000, (bits a 51 16 + bits v 47 16) * 0x10000⟩

/-- TLBI_RANGE (R231). -/
def execTlbiRange (d : Dst) (a v : Src) (s : State) : Host.Outcome State Fault Refusal :=
  s.run { feats := [0], priv := true } 4 4 0 fun k =>
    let sl := s.slot k
    s.supAct k d (if bits (sl.read v) 47 16 = 0 then s.gives k d stBADREC
      else s.tlbi k d (purgeRange (sl.read a) (sl.read v)))

/-- TLBI_ASID (R231). -/
def execTlbiAsid (d : Dst) (v : Src) (s : State) : Host.Outcome State Fault Refusal :=
  s.run { feats := [0], priv := true } 4 4 0 fun k =>
    s.supAct k d (s.tlbi k d ⟨some (((s.slot k).read v).setWidth 16), 0, 2 ^ 52⟩)

/-- TLBI_ALL (R231). -/
def execTlbiAll (d : Dst) (s : State) : Host.Outcome State Fault Refusal :=
  s.run { feats := [0], priv := true } 4 4 0 fun k => s.supAct k d (s.tlbi k d ⟨none, 0, 2 ^ 52⟩)

/-- Whether every access that a TLBI waits for is performed (R231). -/
def State.drained (s : State) (accesses : List (Nat × Nat)) : Bool :=
  !(s.net.reqs.any fun r => accesses.contains (r.id, 0)) && (!s.translated.any fun e => accesses.contains e.1) &&
    !accesses.any fun e => s.posting e.1

/-- The n-th supervisor operation. -/
def State.supAt (s : State) (n : Nat) : Option Sup := s.net.sups[n]?

/-- TLBI_DRAINED (R231). -/
def execTlbiDrained (n : Nat) (s : State) : Host.Outcome State Fault Refusal :=
  .next (match s.supAt n with
    | some ⟨id, _, _, .tlbi accesses, none⟩ => if s.drained accesses then s.resolveSup id 0 else s
    | _ => s)

/-! ### CTX (R224 to R227, R232) -/

/-- CTX_EVICT (R224, R225, R232). -/
def execCtxEvict (d : Dst) (a v : Src) (s : State) : Host.Outcome State Fault Refusal :=
  s.run { feats := [0], priv := true } 4 4 0 fun k =>
    let t := targetSlot ((s.slot k).read a)
    let area := (s.slot k).read v
    s.supAct k d (
      if (s.slot t).status ≠ .live then s.gives k d stNOOBJ
      else if (s.slot t).cls = 3 then s.gives k d stDENIED
      else if !privFits (s.slot t).priv then s.gives k d stBADREC
      else if 64 ≤ (s.core (keyCore t)).ctxs.length then s.gives k d stNORES
      else
        match s.areaFault k area (areaSize (s.slot t).priv) .store .store with
        | some (e, va) => .trap e va
        | none => (s.release k).startSup k (.evict (keyCore t) (keySlot t) area (s.slot k).asid))

/-- Whether the actor of slot `t` has a Reckoner command that has not replied (R385). -/
def State.queries (s : State) (t : Nat) : Bool :=
  s.hbm.toList.any fun x => x.queues.any fun q => q.2.any fun y =>
    y.cmd.issuer.any fun i => decide (i.core = keyCore t) && decide (i.ctxid = (s.slot t).ctxid)

/-- Whether an activation may be saved: no Reckoner command outstanding (R385), and at an instruction
boundary or blocked with no access outstanding that cannot be made again (R224, log 9). -/
def State.settled (s : State) (t : Nat) : Bool :=
  !s.queries t &&
  match (s.slot t).phase with
  | .blocked (.post _ _ _ _) => false
  | .blocked (.access id) =>
    (!s.net.reqs.any fun r => decide (r.id = id) && r.op.writes) &&
    !s.net.answers.any fun r => decide (r.id = id) && (match r.cont with
      | .value _ => true
      | .store => true
      | _ => false)
  | _ => true

/-- EVICT_COMPLETE (R224): the target is saved once it may be; NOOBJ where it has gone. -/
def execEvictComplete (n : Nat) (s : State) : Host.Outcome State Fault Refusal :=
  s.event (match s.supAt n with
    | some ⟨id, _, _, .evict core slot area asid, none⟩ =>
      let t := slotKey core slot.val
      if (s.slot t).status ≠ .live then s.resolveSup id stNOOBJ
      else if s.settled t then (s.evict t area asid).resolveSup id 0
      else s
    | _ => s)

/-- The context that a save area holds (R227). -/
def Core.savedAt (co : Core) (area : Word) (asid : BitVec 16) : Option Ctx :=
  co.ctxs.find? fun e => e.loc = .saved area asid

/-- Pool entries that a reloaded slot takes (R175); its claimed entries have stayed claimed (R180). -/
def Slot.poolNeed (sl : Slot) : Nat :=
  sl.granted + (sl.mb.toList.map fun m => if m.conf then m.quota.toNat else 0).sum

/-- The answer of CTX.restore before it acts (R226, R232, R233): the slot and the context, or a status. -/
def State.restoreCheck (s : State) (c : Nat) (area : Word) (asid : BitVec 16) : Except Word (Nat × Ctx) :=
  let w (off : Nat) : Word := s.areaWord c area asid off
  if s.areaLoad c area asid 0 4 ≠ 0x01564153 ∨ !privFits (w 0x038) then .error stBADREC
  else
    match (s.core c).savedAt area asid with
    | none => .error stNOOBJ
    | some x =>
      if !s.descHolds (w 0x008) (w 0x010) then .error stNOOBJ
      else if 2 ≤ bits (w 0) 41 40 ∧ s.tenant c ((w 0).extractLsb' 48 16) then .error stDENIED
      else if x.types.any fun t => bit (s.core c).vect[ix 256 t] 63 && !bit (s.core c).vect[ix 256 t] 55 then
        .error stTYPECLASH
      else
        match s.emptySlot c with
        | none => .error stNORES
        | some n => if s.poolFree c (s.areaSlot c area asid x).poolNeed then .ok (n, x) else .error stNORES

/-- CTX_RESTORE (R226, R232). -/
def execCtxRestore (d : Dst) (a v : Src) (s : State) : Host.Outcome State Fault Refusal :=
  s.run { feats := [0], priv := true } 4 4 0 fun k =>
    let c := bits ((s.slot k).read a) 11 0
    let area := (s.slot k).read v
    let asid := (s.slot k).asid
    let s := s.release k
    match s.areaFault k area 0x2A80 .load .load with
    | some (e, va) => .trap e va
    | none =>
      let s := s.areaOpen c area asid 0x2A80
      match s.areaPoison c area asid 0 (0x2A80 / 8) with
      | some va => .trap 0x118#10 va
      | none =>
        let size := areaSize (s.areaWord c area asid 0x038)
        match s.areaFault k area size .load .load with
        | some (e, va) => .trap e va
        | none =>
          let s := s.areaOpen c area asid size
          match s.restoreCheck c area asid with
          | .error e => s.gives k d e
          | .ok (n, x) => (s.restore c n area asid x).gives k d (BitVec.ofNat 64 n)

/-- Bytes of the instruction at the PC of slot `t`: by the halfword there where it can be fetched, else by
FINST (R51, R232). -/
def State.skipLength (s : State) (t : Nat) : Nat :=
  match s.fetchHalf t (s.slot t).pc with
  | .ok (_, _, lo) => if longHalf lo then 4 else 2
  | .error _ => if bit (s.slot t).finst 0 then 4 else 2

/-- Resumes a frozen actor (R217, R232). -/
def State.resume (s : State) (t : Nat) (skip : Bool) : State :=
  let n := s.skipLength t
  let s := if skip then s.dropSup t else s
  s.modSlot t fun sl =>
    if skip ∧ sl.phase ≠ .idle then
      { sl with frozen := false, phase := .ready, pc := sl.pc + BitVec.ofNat 52 n, since := s.cycle, aged := 0 }
    else { sl with frozen := false, since := s.cycle, aged := 0 }

/-- CTX_RESUME (R232). -/
def execCtxResume (d : Dst) (a v : Src) (s : State) : Host.Outcome State Fault Refusal :=
  s.run { feats := [0], priv := true } 4 4 0 fun k =>
    let t := targetSlot ((s.slot k).read a)
    if (s.slot t).status ≠ .live ∨ !(s.slot t).frozen then s.gives k d stNOOBJ
    else (s.resume t (bit ((s.slot k).read v) 0)).gives k d 0

/-- The evicted context that a save area holds, and its core. -/
def State.savedCtx (s : State) (area : Word) (asid : BitVec 16) : Option (Nat × Ctx) :=
  s.cores.findSome? fun e => (e.2.savedAt area asid).map fun x => (e.1, x)

/-- CTX_DESTROY (R232): an actor in a slot, or one in a save area. -/
def execCtxDestroy (d : Dst) (a v : Src) (s : State) : Host.Outcome State Fault Refusal :=
  s.run { feats := [0], priv := true } 4 4 0 fun k =>
    let sl := s.slot k
    if bit (sl.read a) 15 then
      match s.savedCtx (sl.read v) sl.asid with
      | none => s.gives k d stNOOBJ
      | some (c, x) => (s.removeEvicted c x (some 0x212#10)).gives k d 0
    else
      let t := targetSlot (sl.read a)
      if (s.slot t).status ≠ .live then s.gives k d stNOOBJ
      else (s.removeActor t (some 0x212#10)).givesIfLive k d 0 4

/-- Holds an actor at its next instruction boundary (R217, R232). -/
def State.hold (s : State) (t : Nat) : State :=
  (s.modSlot t fun sl => { sl with frozen := true, phase := if sl.phase = .running then .ready else sl.phase }).yieldCore t

/-- CTX_FREEZE (R232). -/
def execCtxFreeze (d : Dst) (a : Src) (s : State) : Host.Outcome State Fault Refusal :=
  s.run { feats := [0], priv := true } 4 4 0 fun k =>
    let t := targetSlot ((s.slot k).read a)
    if (s.slot t).status ≠ .live then s.gives k d stNOOBJ else (s.hold t).gives k d 0

end Sys2Proof.Machine
end

