-- ==== Sys2Proof/Machine/Dispatcher.lean ====
section
/-! DEFINITION. Events of cores and messages: delivery and retries (R174, R178), dispatch, pre-emption and
ageing (R181 to R183), the end of waits (R181), and the placement of children (R196). -/

namespace Sys2Proof.Machine

/-! ### Delivery (R174, R176, R178, R188) -/

/-- Whether flight `n` may arrive: it is due and no earlier message of its sender core to the same mailbox
and channel is still on its way (R176). -/
def State.landing (s : State) (n : Nat) : Option Flight :=
  match s.net.flights[n]? with
  | none => none
  | some f =>
    let same (g : Flight) : Bool := decide (g.core = f.core) && decide (g.dst = f.dst) &&
      decide (g.msg.mb = f.msg.mb) && (g.msg.vc == f.msg.vc)
    if f.due.isNone ∧ !(s.net.flights.take n).any same then some f else none

def State.dropFlight (s : State) (n : Nat) : State := s.modNet fun q => { q with flights := q.flights.eraseIdx n }

/-- Reports the fate of a message to its sender (R188, R145, R180, R216): cause 0 for acceptance. -/
def State.reportFlight (s : State) (f : Flight) (cause : BitVec 10) : State :=
  match f.report with
  | .nothing => s
  | .bead =>
    let s := if cause = 0 then s else s.credit f.core f.ctxid cause 6
    s.beadReply f.core f.ctxid 1
  | .status off =>
    s.storeLE (s.winKey f.core off) 8 (fields [(cause.toNat, 0), (f.tries, 10)]).toNat
  | .post id => if cause = 0 then s.postAccepted id else s.postFailed id cause
  | .engine origin => if cause = 0 then s else s.credit f.core f.ctxid cause origin
  | .notice => if cause = 0 then s else s.logRemoval 1

/-- A refused message: it is retried after its backoff, or dropped with 0x202; one that holds a claimed
entry is never dropped (R178). -/
def State.refuseFlight (s : State) (n : Nat) (f : Flight) : State :=
  let f := { f with tries := f.tries + 1 }
  if !f.claimed ∧ exhausted (f.tries - 1) f.born s.ns then (s.dropFlight n).reportFlight f 0x202
  else s.modNet fun q => { q with flights := putAt q.flights n { f with due := some (s.ns + backoff (f.tries - 1)) } }

/-- The judgement of an arriving message; no core has a number of 4,096 or more (log 13). -/
def State.fateOf (s : State) (f : Flight) : Fate := if f.dst < 4096 then s.judge f.dst f.msg f.claimed else .discarded

/-- What becomes of flight `n` when it arrives. A message in a ring keeps the entry claimed for it (R226). -/
def State.arrive (s : State) (n : Nat) (f : Flight) : State :=
  let free (s : State) : State := if f.claimed then s.unclaim f.dst else s
  match s.fateOf f with
  | .discarded => (free (s.dropFlight n)).reportFlight f 0x203
  | .ring area asid => ((s.dropFlight n).ringAppend f.dst area asid f.msg).reportFlight f 0
  | .refused => s.refuseFlight n f
  | .accepted k entry => ((s.dropFlight n).accept k f.msg entry).reportFlight f 0
  | .keyPast k => ((s.dropFlight n).reportFlight f 0).keyPassed k

/-- DELIVERY (R174): `n` is the position in the list of messages in flight. -/
def execDelivery (n : Nat) (s : State) : Host.Outcome State Fault Refusal :=
  s.event (match s.landing n with
    | some f => s.arrive n f
    | none => s)

/-- The retry of a message or posted command whose backoff has expired: `n` counts the messages in flight,
then the posted commands. -/
def State.retryNet (s : State) (n : Nat) : State :=
  let past (d : Option Nat) : Bool := d.any fun t => decide (t ≤ s.ns)
  s.modNet fun q =>
    match q.flights[n]? with
    | some f => if past f.due then { q with flights := putAt q.flights n { f with due := none } } else q
    | none =>
      match q.posts[n - q.flights.length]? with
      | some p => if past p.due then { q with posts := putAt q.posts (n - q.flights.length) { p with due := none } } else q
      | none => q

/-- RETRY (R178). -/
def execRetry (n : Nat) (s : State) : Host.Outcome State Fault Refusal := .next (s.retryNet n)

/-- RETRY_DELAY (R214): after 1 µs the activation is ready again. -/
def execRetryDelay (core slot : Nat) (s : State) : Host.Outcome State Fault Refusal :=
  .next (match (s.slot (slotKey core slot)).phase with
    | .blocked (.retryAt t) => if t ≤ s.ns then s.awaken (slotKey core slot) else s
    | _ => s)

/-! ### Dispatch (R181 to R183) -/

/-- Whether a slot holds a ready activation, or an idle actor with a candidate. -/
def Slot.waitsForCore (sl : Slot) : Bool :=
  decide (sl.status = .live) && !sl.frozen && (decide (sl.phase = .ready) || (decide (sl.phase = .idle) && sl.cand.isSome))

/-- The candidate message of an idle slot. -/
def Slot.candidate (sl : Slot) : Option (Fin 4 × Nat × Held) :=
  match sl.cand with
  | none => none
  | some (b, i) => ((sl.mb[b]).held[i]?).map fun h => (b, i, h)

/-- Base priority and arrival of what a slot has to run (R182). -/
def State.contest (s : State) (k : Nat) : Nat × Nat :=
  let sl := s.slot k
  if sl.phase = .ready then (sl.basePrio.toNat, sl.arrived)
  else match sl.candidate with
    | some (_, _, h) => ((s.typePrio (keyCore k) h.msg.type).toNat, h.arr)
    | none => (0, 0)

/-- Effective priority of what a slot has to run (R183). -/
def State.effective (s : State) (k : Nat) : Nat := Nat.min 3 ((s.contest k).1 + s.readyPeriods (s.slot k))

/-- The slot of a core that runs next: highest effective priority, then the earliest arrival, then the
lowest slot (R182). -/
def State.nextSlot (s : State) (c : Nat) : Option Nat :=
  best (fun n => (s.effective (slotKey c n), (s.contest (slotKey c n)).2, n))
    ((List.range 8).filter fun n => (s.slot (slotKey c n)).waitsForCore)

/-- The pool entry of a dispatched message is free again (R175, R179, R180). -/
def State.freeEntry (s : State) (k : Nat) (h : Held) : State :=
  match h.entry with
  | .quota => s
  | .reserved tag => s.modSlot k fun sl => { sl with resv := sl.resv.filter fun t => t ≠ tag }
  | .claimed => s.unclaim (keyCore k)

/-- Handler entry (R90, R182): the message moves to a0 to a5, its entry is free, and PC holds the handler
address of its type. -/
def State.enter (s : State) (k : Nat) (b : Fin 4) (i : Nat) (h : Held) : State :=
  let e := (s.core (keyCore k)).vect[ix 256 h.msg.type]
  let s := s.freeEntry k h
  s.modSlot k fun sl =>
    { sl with
      mb := sl.mb.set b { sl.mb[b] with held := (sl.mb[b]).held.eraseIdx i }
      keyed := if h.entry = .quota ∧ (sl.mb[b]).ord then some b else none
      a := h.msg.pay
      hdr0 := h.msg.hdr0
      hdr1 := h.msg.hdr1
      pc := evenPc (e.setWidth 52)
      basePrio := s.typePrio (keyCore k) h.msg.type
      arrived := h.arr
      used := 0
      cand := none
      retries := [] }

/-- Gives the pipeline to slot `k` (R182, R94): a handler entry, or the resumption of a ready activation. -/
def State.dispatch (s : State) (k : Nat) : State :=
  let eff := s.effective k
  let s := if (s.slot k).phase = .ready then s
    else match (s.slot k).candidate with
      | some (b, i, h) => s.enter k b i h
      | none => s
  (s.modSlot k fun sl =>
    { sl with phase := .running, ran := 0, prio := BitVec.ofNat 2 eff, aged := 0 }).modCore (keyCore k) fun c =>
      { c with running := some (keySlot k) }

/-- DISPATCH (R182). -/
def execDispatch (core : Nat) (s : State) : Host.Outcome State Fault Refusal :=
  .next (if (s.core core).running.isSome then s
    else match s.nextSlot core with
      | some n => s.dispatch (slotKey core n)
      | none => s)

/-- Whether the running activation of a core yields (R181): 256 cycles executed since its dispatch, and a
ready one of strictly higher effective priority. -/
def State.yields (s : State) (core : Nat) : Option Nat :=
  match (s.core core).running, s.nextSlot core with
  | some n, some m =>
    let k := slotKey core n.val
    if 256 ≤ (s.slot k).ran ∧ (s.slot k).basePrio.toNat < s.effective (slotKey core m) then some k else none
  | _, _ => none

/-- PRE_EMPTED (R181). -/
def execPreEmpted (core : Nat) (s : State) : Host.Outcome State Fault Refusal :=
  .next (match s.yields core with
    | some k => (s.awaken k).yieldCore k
    | none => s)

/-- AGEING (R183): the effective priority of a ready activation has risen by one. -/
def execAgeing (core slot : Nat) (s : State) : Host.Outcome State Fault Refusal :=
  let k := slotKey core slot
  .next (if (s.slot k).waitsForCore ∧ (s.slot k).aged < s.readyPeriods (s.slot k) then
      s.modSlot k fun sl => { sl with aged := sl.aged + 1 }
    else s)

/-! ### The end of a wait (R181) -/

/-- Whether the condition holds for which an activation waits to try its instruction again. -/
def State.waitOver (s : State) (k : Nat) (w : Wait) : Bool :=
  let sl := s.slot k
  let c := keyCore k
  match w with
  | .beadRoom b => decide (sl.beads[b] ≠ 63)
  | .beads ld st cp tl => beadsBelow sl ld st cp tl
  | .word _ _ _ _ _ => false
  | .woken _ _ => true
  | .access _ => false
  | .drained => !s.net.reqs.any fun r => decide (r.core = c) && decide (r.ctxid = sl.ctxid) && r.cont.isNone
  | .held key => (s.waitsAt key 8).isNone
  | .barrier _ _ _ => false
  | .reservation => decide (sl.resv.length < sl.granted)
  | .guards needs => needs.all fun n => s.guardRoom n.1 n.2
  | .mxuRoom => s.mxuRoom c
  | .vectorRoom => s.vecRoom c
  | .ladleRoom cl ch => decide ((s.chan cl ch).inbox.length < 16)
  | .runnerRoom die i => decide ((s.runInbox die i).length < 4)
  | .bankRoom set => s.bankRoom set
  | .pool p => s.poolFree p 1
  | .launchRoom die => decide ((s.die die).queued < 64)
  | .post _ _ _ _ => false
  | .supervisor id => !s.net.sups.any fun u => decide (u.id = id) && u.result.isNone
  | .retryAt _ => false

/-- Ends a wait: a woken WADDR or BWAIT completes with the value that woke it; every other instruction is made
again (R156, R205, log 9). -/
def State.endWait (s : State) (k : Nat) (w : Wait) : State :=
  match w with
  | .woken v d => (s.modSlot k fun sl => sl.write d v).finishWait k 4 1
  | _ => s.awaken k

/-- WAIT_END (R181). -/
def execWaitEnd (core slot : Nat) (s : State) : Host.Outcome State Fault Refusal :=
  let k := slotKey core slot
  .next (match (s.slot k).phase with
    | .blocked w => if s.waitOver k w then s.endWait k w else s
    | _ => s)

/-! ### Placing children (R196) -/

/-- The header of an initial message: its COLOUR is the launcher's (R170, R171, R395, R407). -/
def State.initialHeader (s : State) (die : Nat) (l : Launch) (m : Msg) : Word :=
  let colour := l.jobcol.toNat
  match l.launcher with
  | .slot core n _ cls => s.header 5 core n.val cls.toNat colour false false m.mb.val m.type
  | _ => s.header 5 (die * 1024) 0 3 colour false false m.mb.val m.type

/-- Initial message `m` of a launch for child `ch` (R196): the child id in a5. -/
def State.initialMsg (s : State) (die : Nat) (l : Launch) (ch dst : Nat) (m : Msg) : State × Msg :=
  let from_ := match l.launcher with
    | .slot core _ _ _ => core
    | _ => die * 1024
  s.formMsg from_ (s.initialHeader die l m) 0 m.key (m.pay.set 5 (BitVec.ofNat 64 ch)) dst

/-- Delivers the initial messages of a child from number `i` on, each with its fate of R174: how many have been
judged, up to the first for which there is no room. -/
def State.deliverInitial (s : State) (die : Nat) (l : Launch) (ch dst i : Nat) : List Msg → State × Nat
  | [] => (s, i)
  | m :: ms =>
    let r := s.initialMsg die l ch dst m
    match r.1.judge dst r.2 false with
    | .refused => (s, i)
    | .accepted k entry => State.deliverInitial (r.1.accept k r.2 entry) die l ch dst (i + 1) ms
    | .ring area asid => State.deliverInitial (r.1.ringAppend dst area asid r.2) die l ch dst (i + 1) ms
    | .keyPast k => State.deliverInitial (r.1.keyPassed k) die l ch dst (i + 1) ms
    | .discarded => State.deliverInitial r.1 die l ch dst (i + 1) ms

/-- Replaces a launch of a die. -/
def State.putLaunch (s : State) (die : Nat) (l : Launch) : State :=
  s.modDie die fun d => { d with launches := d.launches.map fun x => if x.id = l.id then l else x }

/-- Delivers what remains of a child's initial messages, and records how far it got. -/
def State.continueInitial (s : State) (die id ch i : Nat) : State :=
  match s.launchOf die id with
  | none => s
  | some l =>
    let dst := l.cores.getD ch 0
    let r := s.deliverInitial die l ch dst i (l.msgs.drop i)
    match r.1.launchOf die id with
    | none => r.1
    | some l =>
      let rest := l.sent.filter fun e => e.1 ≠ ch
      r.1.putLaunch die { l with sent := if r.2 < l.msgs.length then rest ++ [(ch, r.2)] else rest }

/-- The child of a launch that can be placed now: the first waiting one whose core has room (R196). -/
def State.placeable (s : State) (l : Launch) : Option (Nat × Nat) :=
  if (s.colour l.colour).preempting then none
  else
    l.waiting.findSome? fun ch =>
      match s.placeFor (l.cores.getD ch 0) (launchCreation l.words l.act.toNat l.asid) with
      | .ok n => some (ch, n)
      | .error _ => none

/-- The child whose remaining initial messages now have room. -/
def State.resumable (s : State) (die : Nat) (l : Launch) : Option (Nat × Nat) :=
  l.sent.find? fun e =>
    match l.msgs[e.2]? with
    | none => true
    | some m =>
      let dst := l.cores.getD e.1 0
      s.judge dst (s.initialMsg die l e.1 dst m).2 false ≠ .refused

/-- Places child `ch` of a launch in slot `n` of its core (R196). -/
def State.placeChild (s : State) (die : Nat) (l : Launch) (ch n : Nat) : State :=
  let dst := l.cores.getD ch 0
  let s := (s.openObject l.desc).create dst n (launchCreation l.words l.act.toNat l.asid) (some ⟨die, l.id, ch⟩)
  let s := s.modSlot (slotKey dst n) fun sl => { sl with pw := Vector.ofFn fun i : Fin 8 => l.pws.getD i.val (0, 0) }
  let s := s.putLaunch die { l with placed := l.placed + 1, waiting := l.waiting.filter fun x => x ≠ ch }
  s.continueInitial die l.id ch 0

/-- CHILD_PLACEMENT (R196): `n` is the launch's position in its die's list. -/
def execChildPlacement (die n : Nat) (s : State) : Host.Outcome State Fault Refusal :=
  s.event (match (s.die die).launches[n]? with
    | none => s
    | some l =>
      match s.resumable die l with
      | some (ch, i) => s.continueInitial die l.id ch i
      | none =>
        match s.placeable l with
        | some (ch, slot) => s.placeChild die l ch slot
        | none => s)

end Sys2Proof.Machine
end

