-- ==== Sys2Proof/Machine/Quiesce.lean ====
section
/-! DEFINITION. What a colour has in flight (R202, R222), quiescence (R202), launches from packets (R195,
R407) and pre-emption (R220 to R222, R350). -/

namespace Sys2Proof.Machine

/-! ### Commands between issue and reply (R202, R222, R299) -/

/-- Commands of the MXU and the vector unit of core `c`, with their colours: each counts at its engine and for its
issuer (log 61). -/
def Core.commands (co : Core) (c : Nat) : List (Nat × Nat) :=
  let both (colour : Vector Word 8 → Nat) (x : Cmd) : List (Nat × Nat) :=
    (c :: (x.issuer.map Issuer.core).toList).map fun n => (n, colour x.w)
  (co.mxuIn ++ co.mxuRun.map Started.cmd).flatMap (both mxuColour) ++
    (co.vecIn ++ co.vecRun.map Started.cmd).flatMap (both vecColour)

/-- The core that a packet counts for: its issuer's, the binder's of its queue, or the cluster's first. -/
def packetCore (cl : Nat) (cmd : Cmd) : Nat := (cmd.issuer.map Issuer.core).getD (cl * 256)

/-- Commands of a Ladle: those accepted into an inbox and those started (R299). -/
def Cluster.commands (u : Cluster) (cl : Nat) : List (Nat × Nat) :=
  u.chans.toList.flatMap fun x =>
    x.inbox.map (fun y => (packetCore cl y, (ladColour y.w).toNat)) ++
    x.cur.toList.map fun y => (packetCore cl y.started.cmd, (ladColour y.started.cmd.w).toNat)

/-- Commands of a die's Runner. -/
def Die.commands (u : Die) (die : Nat) : List (Nat × Nat) :=
  let one (x : Cmd) : Nat × Nat := (x.core die, runColour x.w)
  u.control.map one ++ u.comms.toList.flatMap fun x =>
    x.inbox.map one ++ x.play.toList.map fun p => one p.cmd

/-- Commands of the Reckoners of a stack. -/
def Stack.commands (t : Stack) : List (Nat × Nat) :=
  t.queues.flatMap fun q => q.2.map fun y => (rkCore y.cmd.w, rkColour y.cmd.w)

/-- A posted command that its inbox has not yet accepted. -/
def Post.colours (p : Post) : List (Nat × Nat) :=
  let at_ (c colour : Nat) : List (Nat × Nat) := (c :: (p.poster.map Issuer.core).toList).map fun n => (n, colour)
  match p.inbox with
  | .mxu c => at_ c (mxuColour p.w)
  | .vector c => at_ c (vecColour p.w)
  | .runner die => at_ (die * 1024) (runColour p.w)

/-- Every engine command between issue and reply: the core it counts for, and its colour. -/
def State.commands (s : State) : List (Nat × Nat) :=
  s.cores.flatMap (fun (e : Nat × Core) => e.2.commands e.1) ++
  (List.range 16).flatMap (fun cl => (s.cluster cl).commands cl) ++
  (List.range 4).flatMap (fun d => (s.die d).commands d) ++
  s.hbm.toList.flatMap Stack.commands ++ s.net.posts.flatMap Post.colours

/-- Whether a command of a colour is outstanding in the set of `scope` around a core. -/
def State.commanded (s : State) (scope anchor colour : Nat) : Bool :=
  s.commands.any fun e => sameScope scope anchor e.1 && decide (e.2 = colour)

/-- Whether a message of a colour is in flight from or to the set. -/
def State.mailed (s : State) (scope anchor : Nat) (colour : BitVec 6) : Bool :=
  s.net.flights.any fun f => decide (f.msg.colour = colour) &&
    (sameScope scope anchor f.core || sameScope scope anchor f.dst)

/-! ### Quiescence (R202) -/

/-- Whether a slot has an activation of a colour that is queued, ready, running or blocked. -/
def Slot.busy (sl : Slot) (colour : BitVec 6) : Bool :=
  decide (sl.status = .live) && decide (sl.jobcol = colour) &&
    (decide (sl.phase ≠ .idle) || sl.mb.toList.any fun m => decide (m.held ≠ []))

/-- Whether messages wait in the rings of a restored actor of a colour (R202, R226). -/
def State.ringed (s : State) (k : Nat) (colour : BitVec 6) : Bool :=
  decide ((s.slot k).status = .live) && decide ((s.slot k).jobcol = colour) && decide (s.slotRing k ≠ [])

/-- Whether an evicted actor of a colour has an unfinished activation or messages, in its area or its rings
(R202, R225). -/
def State.busyAway (s : State) (scope anchor : Nat) (colour : BitVec 6) : Bool :=
  s.cores.any fun e => sameScope scope anchor e.1 && e.2.ctxs.any fun x => match x.loc with
    | .saved area asid => decide (s.areaLoad e.1 area asid 0x01C 1 = colour.toNat) &&
        ((s.areaLoad e.1 area asid 0x004 1).testBit 0 || decide (s.areaLoad e.1 area asid 0x034 4 ≠ 0) ||
          decide (s.awayRing e.1 x area asid ≠ []))
    | _ => false

/-- The condition of R202 for the set of `scope` around a core. -/
def State.quiescent (s : State) (scope anchor : Nat) (colour : BitVec 6) : Bool :=
  !(s.dies.toList.any fun d => d.work.any fun w => decide (w.colour = colour) && sameScope scope anchor w.core) &&
  !(s.slots.any fun e => sameScope scope anchor (keyCore e.1) && (e.2.busy colour || s.ringed e.1 colour)) &&
  !s.busyAway scope anchor colour && !s.mailed scope anchor colour && !s.commanded scope anchor colour.toNat

/-- Whether a detector is that of (scope set, colour). -/
def Detector.names (x : Detector) (scope set : Nat) (colour : BitVec 6) : Bool :=
  decide (x.scope = scope) && decide (x.set = set) && decide (x.colour = colour)

/-- A QUIES of slot `k`: its failures that F does not change, then `act` of scope and colour. -/
def State.quies (s : State) (d : Dst) (a v : Src) (act : Nat → Nat → BitVec 6 → Act) :
    Host.Outcome State Fault Refusal :=
  s.run { feats := [0] } 4 2 0 fun k =>
    let sl := s.slot k
    let colour := (sl.read a).setWidth 6
    let scope := bits (sl.read v) 12 10
    if sl.cls.toNat < 2 ∧ colour ≠ sl.jobcol then s.gives k d stDENIED
    else if scope < 3 ∨ 5 < scope then s.gives k d stBADREC
    else act k scope colour

/-- QUIES_ARM (R202): an entry of the arming core's pool is claimed (R180). -/
def execQuiesArm (d : Dst) (a v : Src) (s : State) : Host.Outcome State Fault Refusal :=
  s.quies d a v fun k scope colour =>
    let sl := s.slot k
    let c := keyCore k
    let set := scopeSet scope c
    let w := sl.read v
    if s.module.detect.any fun x => x.names scope set colour then s.gives k d stBUSY
    else if !s.poolFree c 1 then s.gives k d stNORES
    else
      ((s.claim c).modModule fun m =>
        { m with detect := m.detect ++
            [⟨scope, set, colour, c, keySlot k, sl.ctxid, sl.cls, w.setWidth 8, w.extractLsb' 8 2, sl.jobcol⟩] }).gives k d 0

/-- QUIES_DISARM (R202): the claimed entry is free again, where it has not left with the arming actor. -/
def execQuiesDisarm (d : Dst) (a v : Src) (s : State) : Host.Outcome State Fault Refusal :=
  s.quies d a v fun k scope colour =>
    match s.module.detect.find? fun x => x.names scope (scopeSet scope (keyCore k)) colour with
    | none => s.gives k d stNOOBJ
    | some x =>
      ((if s.present x.core x.ctxid then s.unclaim x.core else s).modModule fun m =>
        { m with detect := m.detect.filter fun y => !y.names x.scope x.set x.colour }).gives k d 0

/-- QUIES_TEST (R202). -/
def execQuiesTest (d : Dst) (a v : Src) (s : State) : Host.Outcome State Fault Refusal :=
  s.quies d a v fun k scope colour =>
    s.gives k d (if s.quiescent scope (keyCore k) colour then 1 else 0)

/-- The n-th detector, if quiescence holds for it. -/
def State.detected (s : State) (n : Nat) : Option Detector :=
  (s.module.detect[n]?).filter fun x => s.quiescent x.scope x.core x.colour

/-- The accesses of the actors of a colour in a set are performed: what QUIESCED acquires (R164, R202). -/
def State.releaseAll (s : State) (scope anchor : Nat) (colour : BitVec 6) : State :=
  ((s.slots.filter fun e => decide (e.2.jobcol = colour) && sameScope scope anchor (keyCore e.1)).map Prod.fst).foldl
    State.release s

/-- QUIESCED (R202, R171): one message of KIND 4 to the arming slot; the detector is disarmed. The message for an
actor that has been removed is lost (log 77). -/
def execQuiesced (n : Nat) (s : State) : Host.Outcome State Fault Refusal :=
  s.event (match s.detected n with
    | none => s
    | some x =>
      let s := (s.releaseAll x.scope x.core x.colour).modModule fun m => { m with detect := m.detect.eraseIdx n }
      if !s.present x.core x.ctxid then s.logRemoval 1 else
      s.send x.core (s.header 4 x.core x.slot.val x.cls.toNat x.jobcol.toNat false false x.mb.toNat x.type.toNat) 0 0
        #v[x.colour.setWidth 64, BitVec.ofNat 64 x.scope, 0, 0, 0, 0] x.core x.ctxid .nothing true)

/-! ### Launches from packets (R195, R395, R407) -/

/-- The first initial message of a frame's record: the buffer's address and the frame's length come first in its
payload (R398). -/
def framed (frame : Option (Word × Word)) : List Msg → List Msg
  | [] => []
  | m :: ms => frame.elim (m :: ms) fun f => { m with pay := (m.pay.set 0 f.1).set 1 f.2 } :: ms

/-- Queues the launch record at an address as a packet of a queue with an address space and a colour: the record
and its block are read with class 3, and a refusal is a status of R187. The size is 0. -/
def State.packetLaunch (s : State) (die : Nat) (va : Word) (asid : BitVec 16) (colour : BitVec 6) (launcher : Launcher)
    (frame : Option (Word × Word)) : State × Except Word Nat :=
  let c := die * 1024
  match s.unitWords c asid 3 va 8 with
  | .error _ => (s, .error stBADREC)
  | .ok (s, l) =>
    let w := vec8 l
    match s.unitWords c asid 3 (blockAddr w) (blockWords w) with
    | .error _ => (s, .error stBADREC)
    | .ok (s, b) =>
      let s := s.openObject w[2]
      match s.launchStatus die c w 0 asid none with
      | .error e => (s, .error e)
      | .ok act =>
        (s.queueLaunch die w (framed frame (blockMsgs w b)) (blockWindows w b) launcher asid act colour, .ok (s.die die).freshId)

/-! ### Pre-emption (R222, R350) -/

def State.setPreempting (s : State) (colour : BitVec 6) (b : Bool) : State :=
  s.modColour colour fun c => { c with preempting := b }

/-- Whether a committed launch of the colour has a child's core in the set. -/
def State.committedIn (s : State) (scope anchor : Nat) (colour : BitVec 6) : Bool :=
  s.dies.toList.any fun d => d.launches.any fun l =>
    decide (l.colour = colour) && l.committed && l.cores.any (sameScope scope anchor)

/-- The slots of the live actors of a colour in the set. -/
def State.victims (s : State) (scope anchor : Nat) (colour : BitVec 6) : List Nat :=
  (s.slots.filter fun e => decide (e.2.status = .live) && decide (e.2.jobcol = colour) &&
    sameScope scope anchor (keyCore e.1)).map Prod.fst

/-- The evicted actors of a colour in the set, each with its core (R168). -/
def State.victimsAway (s : State) (scope anchor : Nat) (colour : BitVec 6) : List (Nat × Ctx) :=
  (s.cores.filter fun e => sameScope scope anchor e.1).flatMap fun e =>
    (e.2.ctxs.filter fun x => match x.loc with
      | .saved area asid => decide (s.areaLoad e.1 area asid 0x01C 1 = colour.toNat)
      | _ => false).map fun x => (e.1, x)

/-- The notice of R350: core, slot, colour, address space, the address of an unfinished activation, and CTXID. -/
def State.preemptNotice (s : State) (scope c n : Nat) (colour : BitVec 6) (asid : Nat) (pc : Word) (id : BitVec 32) : State :=
  s.notice (s.core c).trapdst
    #v[fields [(0x3C0, 0), (scope, 10), (2, 13), (c, 16), (n, 28), (colour.toNat, 32), (asid, 48)], pc, 0, id.setWidth 64, 0, 0]

/-- Removes one actor: its posted stores are performed, its notice is sent, and its launch is told nothing. -/
def State.preemptActor (scope : Nat) (s : State) (k : Nat) : State :=
  let sl := s.slot k
  let s := (s.release k).preemptNotice scope (keyCore k) (keySlot k).val sl.jobcol sl.asid.toNat
    (if sl.phase = .idle then 0 else sl.pc.setWidth 64) sl.ctxid
  (s.modSlot k fun sl => { sl with launch := none }).removeActor k none

/-- Removes one evicted actor, with the notice of its save area: its slot number there is 0 (log 54). -/
def State.preemptAway (scope : Nat) (s : State) (e : Nat × Ctx) : State :=
  match e.2.loc with
  | .saved area asid =>
    let get (off n : Nat) : Nat := s.areaLoad e.1 area asid off n
    let pc : Word := if (get 0x004 1).testBit 0 then BitVec.ofNat 64 (get 0x040 8 % 2 ^ 52) else 0
    (s.preemptNotice scope e.1 0 (BitVec.ofNat 6 (get 0x01C 1)) (get 0x006 2) pc e.2.id).removeEvicted e.1
      { e.2 with launch := none } none
  | _ => s

/-- Discards the commands of a colour at the inboxes of one MXU and vector unit (R222). -/
def State.discardCore (colour : Nat) (s : State) (c : Nat) : State :=
  let co := s.core c
  let s := s.modCore c fun co =>
    { co with mxuIn := co.mxuIn.filter fun x => mxuColour x.w ≠ colour
              vecIn := co.vecIn.filter fun x => vecColour x.w ≠ colour }
  let s := (co.mxuIn.filter fun x => mxuColour x.w = colour).foldl
    (fun s x => s.discard ((x.issuer.map Issuer.core).getD c) x (mxuReplyTo c x.w)) s
  (co.vecIn.filter fun x => vecColour x.w = colour).foldl
    (fun s x => s.discard ((x.issuer.map Issuer.core).getD c) x (vecReplyTo c x.w)) s

/-- Discards the packets of a colour in the inboxes of a Ladle (R299). -/
def State.discardLadle (scope anchor : Nat) (colour : BitVec 6) (s : State) (cl : Nat) : State :=
  let gone (x : Cmd) : Bool := decide (ladColour x.w = colour) && sameScope scope anchor (packetCore cl x)
  let out := (s.cluster cl).chans.toList.flatMap fun x => x.inbox.filter gone
  let s := s.modCluster cl fun u =>
    { u with chans := u.chans.map fun x => { x with inbox := x.inbox.filter fun y => !gone y } }
  out.foldl (fun s x => s.discard (packetCore cl x) x (ladReplyTo x.w)) s

/-- Discards the commands of a colour in the inboxes of a Runner, and aborts its plays as by KABRT. -/
def State.discardRunner (scope anchor colour : Nat) (s : State) (die : Nat) : State :=
  let gone (x : Cmd) : Bool := decide (runColour x.w = colour) && sameScope scope anchor (x.core die)
  let u := s.die die
  let out := (u.control ++ u.comms.toList.flatMap Comm.inbox).filter gone
  let s := s.modDie die fun u =>
    { u with control := u.control.filter fun y => !gone y
             ranges := u.ranges.filter fun r =>
               (u.comms[ix 4 r.comm]).play.isSome || !((u.comms[ix 4 r.comm]).inbox.head?.any gone)
             comms := u.comms.map fun x => { x with inbox := x.inbox.filter fun y => !gone y } }
  let s := out.foldl (fun s x => s.discard (x.core die) x (runReplyTo x.w)) s
  (List.range 4).foldl (fun s c =>
    let x := s.comm die c
    if x.play.any fun p => gone p.cmd then s.abortPlay die c 0x330#10 x.rank true else s) s

/-- Every queued command of a colour in the set leaves, and its plays end (R222, step 4). -/
def State.discardAll (s : State) (scope anchor : Nat) (colour : BitVec 6) : State :=
  let cores := (s.cores.map Prod.fst).filter (sameScope scope anchor)
  let s := cores.foldl (State.discardCore colour.toNat) s
  let s := (List.range 16).foldl (State.discardLadle scope anchor colour) s
  (List.range 4).foldl (State.discardRunner scope anchor colour.toNat) s

/-- The launches whose children the victims are, in each die's order. -/
def State.launchesOf (s : State) (ks : List Nat) (away : List (Nat × Ctx)) : List (Nat × Launch) :=
  let ms := ks.filterMap (fun k => (s.slot k).launch) ++ away.filterMap fun e => e.2.launch
  (List.range 4).flatMap fun d =>
    ((s.die d).launches.filter fun l => ms.any fun m => decide (m.die = d) && decide (m.id = l.id)).map fun l => (d, l)

/-- Accesses of the victims on their way. -/
def State.accessesOf (s : State) (ks : List Nat) : List Nat :=
  let mine (core : Nat) (id : BitVec 32) : Bool := ks.any fun k =>
    decide (keyCore k = core) && decide ((s.slot k).ctxid = id)
  (s.net.reqs.filter fun r => mine r.core r.ctxid).map Request.id

/-- Steps 1 and 3 of R222: PREEMPTING, the notices, the removal of the actors, and what leaves the engines.
The launches concerned leave their schedulers. -/
def State.preempt (s : State) (scope anchor : Nat) (colour : BitVec 6) : State :=
  let ks := s.victims scope anchor colour
  let away := s.victimsAway scope anchor colour
  let ls := s.launchesOf ks away
  let s := away.foldl (State.preemptAway scope) (ks.foldl (State.preemptActor scope) (s.setPreempting colour true))
  (ls.foldl (fun s e => s.modDie e.1 fun u =>
    { u with launches := u.launches.filter fun x => x.id ≠ e.2.id }) s).discardAll scope anchor colour

/-- CTX_PREEMPT (R222, R232). -/
def execCtxPreempt (d : Dst) (a : Src) (s : State) : Host.Outcome State Fault Refusal :=
  s.run { feats := [0], priv := true } 4 4 0 fun k =>
    let x := (s.slot k).read a
    let colour := x.setWidth 6
    let scope := bits x 10 8
    let anchor := bits x 23 12
    s.supAct k d (
      if scope < 3 ∨ 5 < scope then s.gives k d stBADREC
      else if (s.colour colour).preempting then s.gives k d stBUSY
      else if !(s.colour colour).strm ∧ s.committedIn scope anchor colour then s.gives k d stBUSY
      else
        let ks := s.victims scope anchor colour
        let away := s.victimsAway scope anchor colour
        let op := SupOp.preempt scope anchor colour (ks.length + away.length) (s.launchesOf ks away)
          ((s.accessesOf ks).filter fun n => s.net.reqs.any fun r => decide (r.id = n) && r.cont.isSome)
        if ks.contains k then
          .ends (((s.preempt scope anchor colour).bump.modNet fun n =>
            { n with sups := n.sups ++ [⟨s.nextId, keyCore k, (s.slot k).ctxid, op, none⟩] }).modSlot k fun sl =>
              sl.charge 4)
        else (s.preempt scope anchor colour).startSup k op)

/-- A launch as it is queued again: all its children wait (R222). -/
def Launch.again (l : Launch) (id : Nat) : Launch :=
  { l with id := id, placed := 0, completed := 0, faulted := 0, first := none, committed := false,
           waiting := List.range l.n, sent := [] }

/-- Puts removed launches back at the head of a die's queue, in their order, under new ids. -/
def Die.requeue (u : Die) (ls : List Launch) : Die :=
  let r := ls.foldl (fun (r : Die × List Launch) l =>
    let x := l.again r.1.freshId
    ({ r.1 with nextId := r.1.freshId + 1, launches := r.1.launches ++ [x] }, r.2 ++ [x])) (u, [])
  { r.1 with launches := r.2 ++ u.launches }

/-- The pool entry that a dropped launch kept for its JOIN is free again, where its launcher is still there (R197). -/
def State.dropJoin (s : State) (l : Launch) : State :=
  match l.launcher with
  | .slot core _ ctxid _ =>
    if wantsJoin l.words ∧ s.present core ctxid then s.modCore core fun c => { c with joins := c.joins - 1 } else s
  | _ => s

/-- Whether the counters of step 4 of R222 read zero. -/
def State.drainedOf (s : State) (scope anchor : Nat) (colour : BitVec 6) (reqs : List Nat) : Bool :=
  !s.commanded scope anchor colour.toNat && !s.mailed scope anchor colour &&
    !s.net.reqs.any fun r => reqs.contains r.id

/-- Whether step 5 of R222 queues the record at RESTART. -/
def State.restarts (s : State) (colour : BitVec 6) (count : Nat) : Bool :=
  decide (count ≠ 0) && (s.colour colour).strm && decide ((s.colour colour).restart ≠ 0)

/-- Steps 5 and 6 of R222: what is queued again, and the result. -/
def State.resumeColour (s : State) (anchor : Nat) (colour : BitVec 6) (count : Nat)
    (again : List (Nat × Launch)) : State × Word :=
  let col := s.colour colour
  let n := BitVec.ofNat 64 count
  if s.restarts colour count then
    let s := again.foldl (fun s e => s.dropJoin e.2) s
    match s.packetLaunch (dieOf anchor) col.restart col.ckasid colour .restart none with
    | (s, .ok _) => (s, n)
    | (s, .error e) => (s, e)
  else
    ((List.range 4).foldl (fun s d => s.modDie d fun u => u.requeue ((again.filter fun e => e.1 = d).map Prod.snd)) s, n)

/-- Whether the n-th supervisor operation is a pre-emption whose colour has drained; a scheduler that has
64 records holds a restart up. -/
def State.preemptDone (s : State) (n : Nat) : Bool :=
  match s.supAt n with
  | some ⟨_, _, _, .preempt scope anchor colour count _ reqs, none⟩ =>
    s.drainedOf scope anchor colour reqs &&
      (!s.restarts colour count || decide ((s.die (dieOf anchor)).queued < 64))
  | _ => false

/-- IN_FLIGHT_DRAIN (R222, R407). -/
def execInFlightDrain (n : Nat) (s : State) : Host.Outcome State Fault Refusal :=
  s.event (match s.supAt n with
    | some ⟨id, _, _, .preempt _ anchor colour count again _, _⟩ =>
      if s.preemptDone n then
        let r := s.resumeColour anchor colour count again
        (r.1.setPreempting colour false).resolveSup id r.2
      else s
    | _ => s)

end Sys2Proof.Machine
end

