-- ==== Sys2Proof/Machine/Objects.lean ====
section
/-! DEFINITION. Launch queues (R395) and the load references and unloading of objects (R86, R87). -/

namespace Sys2Proof.Machine

/-! ### The head of a launch queue (R395) -/

/-- The head slot of a launch queue, ready: the key of its control block, RDIDX, and the slot's address. -/
structure QueueHead where
  cb   : Nat
  rd   : Nat
  slot : Word
  deriving DecidableEq, Repr

def State.launchQueue (s : State) (die q : Nat) : LaunchQueue := (s.die die).lqs[ix 16 q]

/-- The key of an address of a launch queue, in the queue's ASID. -/
def State.queuePlace (s : State) (die q : Nat) (kind : AccKind) (va : Word) : Option Nat :=
  match s.translate (die * 1024) (s.launchQueue die q).asid 3 kind va with
  | .error _ => none
  | .ok x => if x.tt ≤ 1 then some x.key else none

/-- The ready head slot of a valid queue: SEQ equals RDIDX<31:0>. -/
def State.queueHead (s : State) (die q : Nat) : Option QueueHead :=
  let d := s.launchQueue die q
  if !bit d.cb 0 then none
  else
    match s.queuePlace die q .load (d.cb &&& ~~~31#64) with
    | none => none
    | some cb =>
      let rd := s.loadLE (cb + 8) 8
      let cap := s.loadLE (cb + 16) 8
      let slot := (d.ring &&& ~~~127#64) + BitVec.ofNat 64 (128 * (rd % cap))
      match s.queuePlace die q .load (slot + 0x40) with
      | none => none
      | some r => if cap ≠ 0 ∧ s.loadLE r 4 = rd % 2 ^ 32 then some ⟨cb, rd, slot⟩ else none

/-- KIND, DESC and GEN of the record in a slot; nothing where it cannot be read. -/
def State.queueRecord (s : State) (die q : Nat) (h : QueueHead) : Option (Nat × Word × Word) :=
  match s.unitWords (die * 1024) (s.launchQueue die q).asid 3 h.slot 8 with
  | .error _ => none
  | .ok (_, l) => some (bits (l.getD 0 0) 7 0, l.getD 2 0, l.getD 3 0)

/-- The completion word (R395): the slot index with a launch id, or with a status of R187. -/
def completion (rd : Nat) : Except Word Nat → Word
  | .ok id => fields [(rd % 2 ^ 32, 0), (id % 2 ^ 31, 32)] ||| (BitVec.ofNat 64 (id / 2 ^ 31 % 2) <<< 63)
  | .error st => fields [(rd % 2 ^ 32, 0), (st.toNat % 256, 32), (1, 63)]

/-- The end of a record: the completion word, then RDIDX (R395). -/
def State.queueNext (s : State) (die q : Nat) (h : QueueHead) (r : Except Word Nat) : State :=
  let s := match s.queuePlace die q .store ((s.launchQueue die q).cw &&& ~~~7#64) with
    | some key => (s.open key 8).storeOp key 8 (completion h.rd r).toNat
    | none => s
  (s.open (h.cb + 8) 8).storeOp (h.cb + 8) 8 ((h.rd + 1) % 2 ^ 64)

/-- The number of a queue in the module. -/
def queueNo (die q : Nat) : Nat := die % 4 * 16 + q % 16

/-- The frame whose record a slot holds (R398). -/
def LaunchQueue.frameOf (d : LaunchQueue) (rd : Nat) : Option (Word × Word) :=
  (d.frames.find? fun e => e.1 = rd).map (·.2)

/-- Forgets the frame of a slot. -/
def State.dropFrameOf (s : State) (die q rd : Nat) : State :=
  let l := s.launchQueue die q
  s.modDie die fun d =>
    { d with lqs := d.lqs.set (ix 16 q) ({ l with frames := l.frames.filter fun e => e.1 ≠ rd }) }

/-- A launch record of a queue (R195, R395): the queue's colour and address space are the launcher's. One that names
an object that the queue has unloaded is refused (R86). -/
def State.queueLaunchRecord (s : State) (die q : Nat) (h : QueueHead) : State :=
  let d := s.launchQueue die q
  let refused : Bool := match s.queueRecord die q h with
    | some (0, desc, gen) => s.unloadedBy (queueNo die q) desc gen
    | _ => false
  let s := s.dropFrameOf die q h.rd
  match s.packetLaunch die h.slot d.asid (d.colour.setWidth 6) (.queue q) (d.frameOf h.rd) with
  | (t, .ok id) => if refused then s.queueNext die q h (.error stNOOBJ) else t.queueNext die q h (.ok id)
  | (t, .error e) => t.queueNext die q h (.error (if refused ∧ e = stNOFIT then stNOOBJ else e))

/-- The head of a queue whose record has its turn, with what the record is: its KIND, DESC and GEN. -/
def State.queueTurn (s : State) (die q : Nat) : Option (QueueHead × Option (Nat × Word × Word)) :=
  match s.queueHead die q with
  | none => none
  | some h => if (s.die die).queued < 64 then some (h, s.queueRecord die q h) else none

/-- The scheduler reads a queue's control block and head slot: held words make the step wait, and each is resolved
(R358, R362). -/
def State.openQueue (s : State) (die q : Nat) : State :=
  let d := s.launchQueue die q
  let see (s : State) (va : Word) (n : Nat) : State :=
    match s.queuePlace die q .load va with
    | none => s
    | some key => ((s.resolveTables (die * 1024) d.asid va.toNat).open key n).resolve key n
  match s.queueHead die q with
  | none => s
  | some h => see (see s (d.cb &&& ~~~31#64) 24) h.slot 0x48

/-- What a scheduler does at the head of a queue: nothing where `act` does not concern the record there. -/
def State.atTurn (s : State) (die q : Nat) (act : State → QueueHead → Option (Nat × Word × Word) → Option State) :
    Host.Outcome State Fault Refusal :=
  s.event (match (s.openQueue die q).queueTurn die q with
    | none => s
    | some (h, r) => (act (s.openQueue die q) h r).getD s)

/-- LAUNCH_QUEUE_RECORD (R395): a launch record, or one that is refused. -/
def execLaunchQueueRecord (die q : Nat) (s : State) : Host.Outcome State Fault Refusal :=
  s.atTurn die q fun s h r => match r with
    | some (1, _, _) => none
    | some (2, _, _) => none
    | _ => some (s.queueLaunchRecord die q h)

/-! ### Load references and unloading (R86, R87) -/

/-- A load-reference or unload record of a launch queue. -/
def State.queueRefer (s : State) (die q kind : Nat) : Host.Outcome State Fault Refusal :=
  s.atTurn die q fun s h r => match r with
    | some (n, desc, gen) =>
      if n = kind then
        let x := s.refer (queueNo die q) (s.launchQueue die q).asid kind desc gen
        some (x.1.queueNext die q h x.2)
      else none
    | none => none

/-- LOAD_REFERENCE (R86): its completion word has launch id 0 (log 74). -/
def execLoadReference (die q : Nat) (s : State) : Host.Outcome State Fault Refusal := s.queueRefer die q 1

/-- UNLOAD (R86): a queue that holds no reference on the object gets NOOBJ (log 56). -/
def execUnload (die q : Nat) (s : State) : Host.Outcome State Fault Refusal := s.queueRefer die q 2

/-- The key of the leaf entry that maps an address: the walk of R134 without its checks. -/
def State.leafPlace (s : State) (va : Nat) (entry : Word) : List (Nat × Nat) → Option Nat
  | [] => none
  | (lo, count) :: levels =>
    let key := s.own (bits entry 47 8 * 256 + 8 * (va / 2 ^ lo % count))
    let e := BitVec.ofNat 64 (s.loadLE key 8)
    if !bit e 0 then none
    else if bits e 3 1 ≠ 0 then some key
    else State.leafPlace s va e levels

/-- Removes the mapping of the page that holds an address of an ASID (R87), in the tables of the module's first core
(log 22). -/
def State.unmapAt (asid : BitVec 16) (s : State) (va : Nat) : State :=
  let root := BitVec.ofNat 64 (s.loadLE (s.own (bits (s.core 0).astab 47 16 * 0x10000 + 8 * asid.toNat)) 8)
  match s.leafPlace va root [(39, 8192), (30, 512), (21, 512), (16, 32)] with
  | some key => (s.open key 8).storeOp key 8 (s.loadLE key 8 / 2 * 2)
  | none => s

/-- Whether anything of a generation of an object remains (R87): an actor in a slot, a save area that records it, an
accepted launch that has children to place, or one that a pre-emption will queue again (R222). An actor that has been
removed runs nothing any more, whatever its commands do (log 90). -/
def State.inUse (s : State) (desc gen : Word) : Bool :=
  (s.slots.any fun e => decide (e.2.status = .live) && decide (e.2.desc = desc) && decide (e.2.gen = gen)) ||
  ((s.dies.toList.flatMap Die.launches).any fun l =>
    decide (l.desc = desc) && decide (l.gen = gen) && decide (l.waiting ≠ [])) ||
  (s.net.heldLaunches.any fun l => decide (l.desc = desc) && decide (l.gen = gen)) ||
  s.cores.any fun e => e.2.ctxs.any fun x => match x.loc with
    | .saved area asid => decide (s.areaWord e.1 area asid 0x008 = desc) && decide (s.areaWord e.1 area asid 0x010 = gen)
    | _ => false

/-- The n-th unloading object, if it may be freed. -/
def State.freeable (s : State) (n : Nat) : Option Unload :=
  (s.module.unloads[n]?).filter fun u => !u.freed && !s.inUse u.desc u.gen

/-- The range in which an object is mapped: from its load base to the end of its last section, which only the loader
knows; it holds the code section (R84, R87, R406, log 56). -/
def State.objectRange (s : State) (u : Unload) : Nat × Nat :=
  let d := s.own u.desc.toNat
  let base := s.loadLE d 8
  (base, Nat.max (base + Config.objectBytes u.gen.toNat) (s.loadLE (d + 0x30) 8 + s.loadLE (d + 0x38) 8))

/-- The pages of 64 KiB that meet a range. -/
def pagesOf (lo hi : Nat) : List Nat := (List.range ((hi + 0xFFFF) / 0x10000 - lo / 0x10000)).map fun i => (lo / 0x10000 + i) * 0x10000

/-- Whether an access, a command or a post that was translated through entries that a purge removes is still on its way
(R139, R231). -/
def State.travels (s : State) (p : Purge) : Bool :=
  (s.net.reqs.any (p.covers s)) || (s.translated.any fun e => p.holds s e.2) || (s.postsThrough p).any s.posting

/-- OBJECT_FREED (R87): the object's pages are unmapped and their translations removed as TLBI.range removes them, once
every access through them has been performed (R231). -/
def execObjectFreed (n : Nat) (s : State) : Host.Outcome State Fault Refusal :=
  s.event (match s.freeable n with
    | none => s
    | some u =>
      let r := s.objectRange u
      let p : Purge := ⟨some u.asid, r.1, r.2⟩
      let freed (s : State) : State := s.modModule fun m => { m with unloads := putAt m.unloads n { u with freed := true } }
      if !s.descHolds u.desc u.gen then freed s
      else if s.travels p then s
      else freed (((pagesOf r.1 r.2).foldl (State.unmapAt u.asid) s).purge p))

end Sys2Proof.Machine
end

