-- ==== Sys2Proof/Machine/Scalar.lean ====
section
/-! DEFINITION. Scalar and control instructions (R107 to R131). -/

namespace Sys2Proof.Machine

/-- An instruction of the scalar group that writes one value through D (R103). -/
def State.alu (s : State) (len cost : Nat) (g : PredNo) (d : Dst) (f : Slot → Word) :
    Host.Outcome State Fault Refusal :=
  s.run (if len = 2 then { feats := [1, 0] } else { feats := [0] }) len cost g fun k =>
    .next (s.modSlot k fun sl => sl.write d (f sl))

/-- An instruction that writes one predicate (R111, R119). -/
def State.setp (s : State) (g : PredNo) (pd : PredNo) (f : Slot → Bool) :
    Host.Outcome State Fault Refusal :=
  s.run { feats := [0] } 4 1 g fun k => .next (s.modSlot k fun sl => sl.setPred pd (f sl))

/-- A branch or jump: where it goes if it is taken, and what it writes first (R122 to R124). The
charge of a taken branch is 2 cycles, of one not taken 1. -/
def State.branch (s : State) (len : Nat) (taken : Slot → Bool) (target : Slot → BitVec 52)
    (link : Slot → Slot) : Host.Outcome State Fault Refusal :=
  let go := match s.cur with
    | some k => taken (s.slot k)
    | none => false
  s.run (if len = 2 then { feats := [1, 0] } else { feats := [0] }) len (if go then 2 else 1) 0 fun k =>
    if go then .jump (s.modSlot k link) (target (s.slot k)) else .next s

/-- ADD (R107). -/
def execAdd (d : Dst) (a b : Src) (g : PredNo) (s : State) : Host.Outcome State Fault Refusal :=
  s.alu 4 1 g d fun sl => sl.read a + sl.read b

/-- SUB (R107). -/
def execSub (d : Dst) (a b : Src) (g : PredNo) (s : State) : Host.Outcome State Fault Refusal :=
  s.alu 4 1 g d fun sl => sl.read a - sl.read b

/-- MUL (R107). -/
def execMul (d : Dst) (a b : Src) (g : PredNo) (s : State) : Host.Outcome State Fault Refusal :=
  s.alu 4 3 g d fun sl => sl.read a * sl.read b

/-- MULH (R107). -/
def execMulh (d : Dst) (a b : Src) (g : PredNo) (s : State) : Host.Outcome State Fault Refusal :=
  s.alu 4 3 g d fun sl => mulHigh (sl.read a) (sl.read b)

/-- DIV (R108). -/
def execDiv (d : Dst) (a b : Src) (g : PredNo) (s : State) : Host.Outcome State Fault Refusal :=
  s.alu 4 20 g d fun sl => divide (sl.read a) (sl.read b)

/-- REM (R108). -/
def execRem (d : Dst) (a b : Src) (g : PredNo) (s : State) : Host.Outcome State Fault Refusal :=
  s.alu 4 20 g d fun sl => remain (sl.read a) (sl.read b)

/-- AND (R107). -/
def execAnd (d : Dst) (a b : Src) (g : PredNo) (s : State) : Host.Outcome State Fault Refusal :=
  s.alu 4 1 g d fun sl => sl.read a &&& sl.read b

/-- OR (R107). -/
def execOr (d : Dst) (a b : Src) (g : PredNo) (s : State) : Host.Outcome State Fault Refusal :=
  s.alu 4 1 g d fun sl => sl.read a ||| sl.read b

/-- XOR (R107). -/
def execXor (d : Dst) (a b : Src) (g : PredNo) (s : State) : Host.Outcome State Fault Refusal :=
  s.alu 4 1 g d fun sl => sl.read a ^^^ sl.read b

/-- SHL (R107). -/
def execShl (d : Dst) (a b : Src) (g : PredNo) (s : State) : Host.Outcome State Fault Refusal :=
  s.alu 4 1 g d fun sl => sl.read a <<< low6 (sl.read b)

/-- SHR (R107). -/
def execShr (d : Dst) (a b : Src) (g : PredNo) (s : State) : Host.Outcome State Fault Refusal :=
  s.alu 4 1 g d fun sl => sl.read a >>> low6 (sl.read b)

/-- SAR (R107). -/
def execSar (d : Dst) (a b : Src) (g : PredNo) (s : State) : Host.Outcome State Fault Refusal :=
  s.alu 4 1 g d fun sl => (sl.read a).sshiftRight (low6 (sl.read b))

/-- SEL (R109): G selects and does not guard. -/
def execSel (d : Dst) (a b : Src) (p : PredNo) (s : State) : Host.Outcome State Fault Refusal :=
  s.alu 4 1 0 d fun sl => if sl.pred p then sl.read a else sl.read b

/-- MIN (R107). -/
def execMin (d : Dst) (a b : Src) (g : PredNo) (s : State) : Host.Outcome State Fault Refusal :=
  s.alu 4 1 g d fun sl => smin (sl.read a) (sl.read b)

/-- MAX (R107). -/
def execMax (d : Dst) (a b : Src) (g : PredNo) (s : State) : Host.Outcome State Fault Refusal :=
  s.alu 4 1 g d fun sl => smax (sl.read a) (sl.read b)

/-- FSH (R110): D is read as the high word. -/
def execFsh (d : Dst) (a b : Src) (g : PredNo) (s : State) : Host.Outcome State Fault Refusal :=
  s.alu 4 1 g d fun sl => funnel (sl.read (dstSrc d)) (sl.read a) (low6 (sl.read b))

/-- CMP_EQ (R111). -/
def execCmpEq (pd : PredNo) (a b : Src) (g : PredNo) (s : State) : Host.Outcome State Fault Refusal :=
  s.setp g pd fun sl => cmpCond 0 (sl.read a) (sl.read b)

/-- CMP_NE (R111). -/
def execCmpNe (pd : PredNo) (a b : Src) (g : PredNo) (s : State) : Host.Outcome State Fault Refusal :=
  s.setp g pd fun sl => cmpCond 1 (sl.read a) (sl.read b)

/-- CMP_LT (R111). -/
def execCmpLt (pd : PredNo) (a b : Src) (g : PredNo) (s : State) : Host.Outcome State Fault Refusal :=
  s.setp g pd fun sl => cmpCond 2 (sl.read a) (sl.read b)

/-- CMP_GE (R111). -/
def execCmpGe (pd : PredNo) (a b : Src) (g : PredNo) (s : State) : Host.Outcome State Fault Refusal :=
  s.setp g pd fun sl => cmpCond 3 (sl.read a) (sl.read b)

/-- CMP_LE (R111). -/
def execCmpLe (pd : PredNo) (a b : Src) (g : PredNo) (s : State) : Host.Outcome State Fault Refusal :=
  s.setp g pd fun sl => cmpCond 4 (sl.read a) (sl.read b)

/-- CMP_GT (R111). -/
def execCmpGt (pd : PredNo) (a b : Src) (g : PredNo) (s : State) : Host.Outcome State Fault Refusal :=
  s.setp g pd fun sl => cmpCond 5 (sl.read a) (sl.read b)

/-- CMP_LTN (R111). -/
def execCmpLtn (pd : PredNo) (a b : Src) (g : PredNo) (s : State) : Host.Outcome State Fault Refusal :=
  s.setp g pd fun sl => cmpCond 6 (sl.read a) (sl.read b)

/-- CMP_GEN (R111). -/
def execCmpGen (pd : PredNo) (a b : Src) (g : PredNo) (s : State) : Host.Outcome State Fault Refusal :=
  s.setp g pd fun sl => cmpCond 7 (sl.read a) (sl.read b)

/-- CMP_LEN (R111). -/
def execCmpLen (pd : PredNo) (a b : Src) (g : PredNo) (s : State) : Host.Outcome State Fault Refusal :=
  s.setp g pd fun sl => cmpCond 8 (sl.read a) (sl.read b)

/-- CMP_GTN (R111). -/
def execCmpGtn (pd : PredNo) (a b : Src) (g : PredNo) (s : State) : Host.Outcome State Fault Refusal :=
  s.setp g pd fun sl => cmpCond 9 (sl.read a) (sl.read b)

/-- CMP_ANY (R111). -/
def execCmpAny (pd : PredNo) (a b : Src) (g : PredNo) (s : State) : Host.Outcome State Fault Refusal :=
  s.setp g pd fun sl => cmpCond 10 (sl.read a) (sl.read b)

/-- CMP_NONE (R111). -/
def execCmpNone (pd : PredNo) (a b : Src) (g : PredNo) (s : State) : Host.Outcome State Fault Refusal :=
  s.setp g pd fun sl => cmpCond 11 (sl.read a) (sl.read b)

/-- CMP_ALL (R111). -/
def execCmpAll (pd : PredNo) (a b : Src) (g : PredNo) (s : State) : Host.Outcome State Fault Refusal :=
  s.setp g pd fun sl => cmpCond 12 (sl.read a) (sl.read b)

/-- CMP_NALL (R111). -/
def execCmpNall (pd : PredNo) (a b : Src) (g : PredNo) (s : State) : Host.Outcome State Fault Refusal :=
  s.setp g pd fun sl => cmpCond 13 (sl.read a) (sl.read b)

/-- CMP_BIT (R111). -/
def execCmpBit (pd : PredNo) (a b : Src) (g : PredNo) (s : State) : Host.Outcome State Fault Refusal :=
  s.setp g pd fun sl => cmpCond 14 (sl.read a) (sl.read b)

/-- CMP_NBIT (R111). -/
def execCmpNbit (pd : PredNo) (a b : Src) (g : PredNo) (s : State) : Host.Outcome State Fault Refusal :=
  s.setp g pd fun sl => cmpCond 15 (sl.read a) (sl.read b)

/-- PLOG_CLR (R119). -/
def execPlogClr (pd pa pb g : PredNo) (s : State) : Host.Outcome State Fault Refusal :=
  s.setp g pd fun sl => plogTable 0#4 (sl.pred pa) (sl.pred pb)

/-- PLOG_NOR (R119). -/
def execPlogNor (pd pa pb g : PredNo) (s : State) : Host.Outcome State Fault Refusal :=
  s.setp g pd fun sl => plogTable 1#4 (sl.pred pa) (sl.pred pb)

/-- PLOG_ANDNA (R119). -/
def execPlogAndna (pd pa pb g : PredNo) (s : State) : Host.Outcome State Fault Refusal :=
  s.setp g pd fun sl => plogTable 2#4 (sl.pred pa) (sl.pred pb)

/-- PLOG_NOTA (R119). -/
def execPlogNota (pd pa pb g : PredNo) (s : State) : Host.Outcome State Fault Refusal :=
  s.setp g pd fun sl => plogTable 3#4 (sl.pred pa) (sl.pred pb)

/-- PLOG_ANDNB (R119). -/
def execPlogAndnb (pd pa pb g : PredNo) (s : State) : Host.Outcome State Fault Refusal :=
  s.setp g pd fun sl => plogTable 4#4 (sl.pred pa) (sl.pred pb)

/-- PLOG_NOTB (R119). -/
def execPlogNotb (pd pa pb g : PredNo) (s : State) : Host.Outcome State Fault Refusal :=
  s.setp g pd fun sl => plogTable 5#4 (sl.pred pa) (sl.pred pb)

/-- PLOG_XOR (R119). -/
def execPlogXor (pd pa pb g : PredNo) (s : State) : Host.Outcome State Fault Refusal :=
  s.setp g pd fun sl => plogTable 6#4 (sl.pred pa) (sl.pred pb)

/-- PLOG_NAND (R119). -/
def execPlogNand (pd pa pb g : PredNo) (s : State) : Host.Outcome State Fault Refusal :=
  s.setp g pd fun sl => plogTable 7#4 (sl.pred pa) (sl.pred pb)

/-- PLOG_AND (R119). -/
def execPlogAnd (pd pa pb g : PredNo) (s : State) : Host.Outcome State Fault Refusal :=
  s.setp g pd fun sl => plogTable 8#4 (sl.pred pa) (sl.pred pb)

/-- PLOG_XNOR (R119). -/
def execPlogXnor (pd pa pb g : PredNo) (s : State) : Host.Outcome State Fault Refusal :=
  s.setp g pd fun sl => plogTable 9#4 (sl.pred pa) (sl.pred pb)

/-- PLOG_MOVB (R119). -/
def execPlogMovb (pd pa pb g : PredNo) (s : State) : Host.Outcome State Fault Refusal :=
  s.setp g pd fun sl => plogTable 10#4 (sl.pred pa) (sl.pred pb)

/-- PLOG_ORNA (R119). -/
def execPlogOrna (pd pa pb g : PredNo) (s : State) : Host.Outcome State Fault Refusal :=
  s.setp g pd fun sl => plogTable 11#4 (sl.pred pa) (sl.pred pb)

/-- PLOG_MOVA (R119). -/
def execPlogMova (pd pa pb g : PredNo) (s : State) : Host.Outcome State Fault Refusal :=
  s.setp g pd fun sl => plogTable 12#4 (sl.pred pa) (sl.pred pb)

/-- PLOG_ORNB (R119). -/
def execPlogOrnb (pd pa pb g : PredNo) (s : State) : Host.Outcome State Fault Refusal :=
  s.setp g pd fun sl => plogTable 13#4 (sl.pred pa) (sl.pred pb)

/-- PLOG_OR (R119). -/
def execPlogOr (pd pa pb g : PredNo) (s : State) : Host.Outcome State Fault Refusal :=
  s.setp g pd fun sl => plogTable 14#4 (sl.pred pa) (sl.pred pb)

/-- PLOG_SET (R119). -/
def execPlogSet (pd pa pb g : PredNo) (s : State) : Host.Outcome State Fault Refusal :=
  s.setp g pd fun sl => plogTable 15#4 (sl.pred pa) (sl.pred pb)

/-- ADDI (R112). -/
def execAddi (d : Dst) (a : Src) (imm : BitVec 10) (s : State) : Host.Outcome State Fault Refusal :=
  s.alu 4 1 0 d fun sl => sl.read a + imm.signExtend 64

/-- LOGI_AND (R113): V is a signed immediate. -/
def execLogiAnd (d : Dst) (a : Src) (v : BitVec 7) (s : State) : Host.Outcome State Fault Refusal :=
  s.alu 4 1 0 d fun sl => sl.read a &&& v.signExtend 64

/-- LOGI_OR (R113): V is a signed immediate. -/
def execLogiOr (d : Dst) (a : Src) (v : BitVec 7) (s : State) : Host.Outcome State Fault Refusal :=
  s.alu 4 1 0 d fun sl => sl.read a ||| v.signExtend 64

/-- LOGI_XOR (R113): V is a signed immediate. -/
def execLogiXor (d : Dst) (a : Src) (v : BitVec 7) (s : State) : Host.Outcome State Fault Refusal :=
  s.alu 4 1 0 d fun sl => sl.read a ^^^ v.signExtend 64

/-- LOGI_ANDN (R113): V is a register. -/
def execLogiAndn (d : Dst) (a v : Src) (s : State) : Host.Outcome State Fault Refusal :=
  s.alu 4 1 0 d fun sl => sl.read a &&& ~~~(sl.read v)

/-- LOGI_ORN (R113): V is a register. -/
def execLogiOrn (d : Dst) (a v : Src) (s : State) : Host.Outcome State Fault Refusal :=
  s.alu 4 1 0 d fun sl => sl.read a ||| ~~~(sl.read v)

/-- LOGI_XNOR (R113): V is a register. -/
def execLogiXnor (d : Dst) (a v : Src) (s : State) : Host.Outcome State Fault Refusal :=
  s.alu 4 1 0 d fun sl => ~~~(sl.read a ^^^ sl.read v)

/-- SHI_SHL (R114). -/
def execShiShl (d : Dst) (a : Src) (n : BitVec 6) (s : State) : Host.Outcome State Fault Refusal :=
  s.alu 4 1 0 d fun sl => sl.read a <<< n.toNat

/-- SHI_SHR (R114). -/
def execShiShr (d : Dst) (a : Src) (n : BitVec 6) (s : State) : Host.Outcome State Fault Refusal :=
  s.alu 4 1 0 d fun sl => sl.read a >>> n.toNat

/-- SHI_SAR (R114). -/
def execShiSar (d : Dst) (a : Src) (n : BitVec 6) (s : State) : Host.Outcome State Fault Refusal :=
  s.alu 4 1 0 d fun sl => (sl.read a).sshiftRight n.toNat

/-- SHI_ROL (R114). -/
def execShiRol (d : Dst) (a : Src) (n : BitVec 6) (s : State) : Host.Outcome State Fault Refusal :=
  s.alu 4 1 0 d fun sl => rotl (sl.read a) n.toNat

/-- SHI_ROR (R114). -/
def execShiRor (d : Dst) (a : Src) (n : BitVec 6) (s : State) : Host.Outcome State Fault Refusal :=
  s.alu 4 1 0 d fun sl => rotr (sl.read a) n.toNat

/-- LIM (R115): D shifted left by 17, the field merged in. -/
def execLim (d : Dst) (imm : BitVec 17) (s : State) : Host.Outcome State Fault Refusal :=
  s.alu 4 1 0 d fun sl => (sl.read (dstSrc d) <<< 17) ||| imm.setWidth 64

/-- BEXT_U (R116). -/
def execBextU (d : Dst) (a v : Src) (s : State) : Host.Outcome State Fault Refusal :=
  s.alu 4 1 0 d fun sl => extract (sl.read a) (low6 (sl.read v)) (fieldWidth (sl.read v)) false

/-- BEXT_S (R116). -/
def execBextS (d : Dst) (a v : Src) (s : State) : Host.Outcome State Fault Refusal :=
  s.alu 4 1 0 d fun sl => extract (sl.read a) (low6 (sl.read v)) (fieldWidth (sl.read v)) true

/-- BEXT_I8 (R116). -/
def execBextI8 (d : Dst) (a v : Src) (s : State) : Host.Outcome State Fault Refusal :=
  s.alu 4 1 0 d fun sl => extract (sl.read a) (low6 (sl.read v)) 8 true

/-- BEXT_N8 (R116). -/
def execBextN8 (d : Dst) (a v : Src) (s : State) : Host.Outcome State Fault Refusal :=
  s.alu 4 1 0 d fun sl => extract (sl.read a) (low6 (sl.read v)) 8 false

/-- BEXT_I16 (R116). -/
def execBextI16 (d : Dst) (a v : Src) (s : State) : Host.Outcome State Fault Refusal :=
  s.alu 4 1 0 d fun sl => extract (sl.read a) (low6 (sl.read v)) 16 true

/-- BEXT_N16 (R116). -/
def execBextN16 (d : Dst) (a v : Src) (s : State) : Host.Outcome State Fault Refusal :=
  s.alu 4 1 0 d fun sl => extract (sl.read a) (low6 (sl.read v)) 16 false

/-- BEXT_I32 (R116). -/
def execBextI32 (d : Dst) (a v : Src) (s : State) : Host.Outcome State Fault Refusal :=
  s.alu 4 1 0 d fun sl => extract (sl.read a) (low6 (sl.read v)) 32 true

/-- BEXT_N32 (R116). -/
def execBextN32 (d : Dst) (a v : Src) (s : State) : Host.Outcome State Fault Refusal :=
  s.alu 4 1 0 d fun sl => extract (sl.read a) (low6 (sl.read v)) 32 false

/-- BINS_INS (R117). -/
def execBinsIns (d : Dst) (a v : Src) (s : State) : Host.Outcome State Fault Refusal :=
  s.alu 4 1 0 d fun sl => insert (sl.read (dstSrc d)) (sl.read a) (low6 (sl.read v)) (fieldWidth (sl.read v))

/-- BINS_B8 (R117). -/
def execBinsB8 (d : Dst) (a v : Src) (s : State) : Host.Outcome State Fault Refusal :=
  s.alu 4 1 0 d fun sl => insert (sl.read (dstSrc d)) (sl.read a) (low6 (sl.read v)) 8

/-- BINS_B16 (R117). -/
def execBinsB16 (d : Dst) (a v : Src) (s : State) : Host.Outcome State Fault Refusal :=
  s.alu 4 1 0 d fun sl => insert (sl.read (dstSrc d)) (sl.read a) (low6 (sl.read v)) 16

/-- BINS_B32 (R117). -/
def execBinsB32 (d : Dst) (a v : Src) (s : State) : Host.Outcome State Fault Refusal :=
  s.alu 4 1 0 d fun sl => insert (sl.read (dstSrc d)) (sl.read a) (low6 (sl.read v)) 32

/-- BCNT_POP (R118). -/
def execBcntPop (d : Dst) (a : Src) (s : State) : Host.Outcome State Fault Refusal :=
  s.alu 4 1 0 d fun sl => popCount (sl.read a)

/-- BCNT_CLZ (R118). -/
def execBcntClz (d : Dst) (a : Src) (s : State) : Host.Outcome State Fault Refusal :=
  s.alu 4 1 0 d fun sl => leadZeros (sl.read a)

/-- BCNT_CTZ (R118). -/
def execBcntCtz (d : Dst) (a : Src) (s : State) : Host.Outcome State Fault Refusal :=
  s.alu 4 1 0 d fun sl => trailZeros (sl.read a)

/-- BCNT_CLO (R118). -/
def execBcntClo (d : Dst) (a : Src) (s : State) : Host.Outcome State Fault Refusal :=
  s.alu 4 1 0 d fun sl => leadZeros (~~~(sl.read a))

/-- BCNT_CTO (R118). -/
def execBcntCto (d : Dst) (a : Src) (s : State) : Host.Outcome State Fault Refusal :=
  s.alu 4 1 0 d fun sl => trailZeros (~~~(sl.read a))

/-- BCNT_REV (R118). -/
def execBcntRev (d : Dst) (a : Src) (s : State) : Host.Outcome State Fault Refusal :=
  s.alu 4 1 0 d fun sl => bitReverse (sl.read a)

/-- BCNT_BSW (R118). -/
def execBcntBsw (d : Dst) (a : Src) (s : State) : Host.Outcome State Fault Refusal :=
  s.alu 4 1 0 d fun sl => byteSwap (sl.read a)

/-- BR_T (R122). -/
def execBrT (p : PredNo) (disp : BitVec 20) (s : State) : Host.Outcome State Fault Refusal :=
  s.branch 4 (fun sl => sl.pred p) (fun sl => dispTarget sl.pc disp) id

/-- BR_F (R122). -/
def execBrF (p : PredNo) (disp : BitVec 20) (s : State) : Host.Outcome State Fault Refusal :=
  s.branch 4 (fun sl => !sl.pred p) (fun sl => dispTarget sl.pc disp) id

/-- J (R123). -/
def execJ (disp : BitVec 24) (s : State) : Host.Outcome State Fault Refusal :=
  s.branch 4 (fun _ => true) (fun sl => dispTarget sl.pc disp) id

/-- The address of the instruction after a 32-bit one, as a link. -/
def linkOf (sl : Slot) : Word := (sl.pc + 4).setWidth 64

/-- JL (R123): the link goes to s63, L is unchanged. -/
def execJl (disp : BitVec 24) (s : State) : Host.Outcome State Fault Refusal :=
  s.branch 4 (fun _ => true) (fun sl => dispTarget sl.pc disp) fun sl => sl.put (linkOf sl) (.s 63)

/-- JR (R124): the source is read before the link is written. -/
def execJr (d : Dst) (a : Src) (imm : BitVec 10) (s : State) : Host.Outcome State Fault Refusal :=
  s.branch 4 (fun _ => true)
    (fun sl => (sl.read a + (imm.signExtend 64 <<< 1)).setWidth 52 &&& ~~~1#52)
    fun sl => sl.write d (linkOf sl)

/-- LSET (R126). -/
def execLset (k : BitVec 2) (a : Src) (s : State) : Host.Outcome State Fault Refusal :=
  s.run { feats := [0, 2] } 4 1 0 fun key => .next (s.modSlot key fun sl =>
    { sl with lb := sl.lb.set k.toNat ((sl.read a).setWidth 32) k.isLt,
              i := sl.i.set k.toNat 0 k.isLt })

/-- The indices after LEND of levels 0 to `n` (R127), from level `k` on, or nothing where no level
advances. -/
def lendFrom (sl : Slot) (n : Nat) (k : Nat) : Nat → Option (Vector (BitVec 32) 4)
  | 0 => none
  | fuel + 1 =>
    if n < k then none
    else
      let i := (sl.i[ix 4 k]).toInt
      if i + 1 < (sl.lb[ix 4 k]).toNat then
        some (sl.i.mapFinIdx fun j v _ => if j < k then 0 else if j = k then v + 1 else v)
      else lendFrom sl n (k + 1) fuel

/-- LEND (R127). -/
def execLend (n : BitVec 2) (disp : BitVec 20) (s : State) : Host.Outcome State Fault Refusal :=
  let out := match s.cur with
    | some k => lendFrom (s.slot k) n.toNat 0 4
    | none => none
  s.run { feats := [0, 2] } 4 (if out.isSome then 2 else 1) 0 fun k =>
    match out with
    | some i => .jump (s.modSlot k fun sl => { sl with i := i }) (dispTarget (s.slot k).pc disp)
    | none => .next s

/-- The predicates that CSET sets (R120). -/
def csetFrom (sl : Slot) (x : Word) (mask : BitVec 8) : Slot :=
  { sl with p := sl.p.mapFinIdx fun k v _ => if k ≠ 0 ∧ mask.getLsbD k then x.getLsbD k else v }

/-- CSET (R120). -/
def execCset (a : Src) (mask : BitVec 8) (s : State) : Host.Outcome State Fault Refusal :=
  s.run { feats := [0] } 4 1 0 fun k => .next (s.modSlot k fun sl => csetFrom sl (sl.read a) mask)

/-- ADR (R128). -/
def execAdr (k : BitVec 2) (d : Dst) (a v : Src) (s : State) : Host.Outcome State Fault Refusal :=
  s.run { feats := [0, 2] } 4 1 0 fun key =>
    .next (s.modSlot key fun sl => sl.write d (lnaddr sl k (sl.read a + sl.read v)))

/-- HRET (R129): the charge, then retirement. -/
def execHret (g : PredNo) (s : State) : Host.Outcome State Fault Refusal :=
  s.run { feats := [0] } 4 1 g fun k => .ends ((s.modSlot k fun sl => sl.charge 1).retire k)

/-- HINT (R130): it changes no state and never faults. -/
def execHint (_ : BitVec 7) (_ : BitVec 17) (s : State) : Host.Outcome State Fault Refusal :=
  s.run { feats := [0] } 4 1 0 fun _ => .next s

/-- GETC_PC (R131). -/
def execGetcPc (d : Dst) (s : State) : Host.Outcome State Fault Refusal := s.alu 4 1 0 d fun sl => sl.pc.setWidth 64

/-- GETC_HDR0 (R131). -/
def execGetcHdr0 (d : Dst) (s : State) : Host.Outcome State Fault Refusal := s.alu 4 1 0 d fun sl => sl.hdr0

/-- GETC_HDR1 (R131). -/
def execGetcHdr1 (d : Dst) (s : State) : Host.Outcome State Fault Refusal := s.alu 4 1 0 d fun sl => sl.hdr1

/-- GETC_PRD (R131). -/
def execGetcPrd (d : Dst) (s : State) : Host.Outcome State Fault Refusal := s.alu 4 1 0 d fun sl => sl.predWord

end Sys2Proof.Machine
end

