-- ==== Sys2Proof/Machine/Short.lean ====
section
/-! DEFINITION. The 16-bit instructions (R66 to R68), each with the effect of its expansion. -/

namespace Sys2Proof.Machine

/-- A two-operand 16-bit form: X := f(X, Y) (R67). -/
def State.zop (s : State) (cost : Nat) (x y : ZReg) (f : Word → Word → Word) :
    Host.Outcome State Fault Refusal :=
  s.alu 2 cost 0 (zDst x) fun sl => f (sl.read (zSrc x)) (sl.read (zSrc y))

/-- The address of a 16-bit load or store (R66, R67). -/
def zAddr (sl : Slot) (y : ZReg) (off : BitVec 2) (n : Nat) : Word :=
  sl.read (zSrc y) + BitVec.ofNat 64 (off.toNat * n)

/-- A 16-bit load (R67). -/
def State.zload (s : State) (x y : ZReg) (off : BitVec 2) (n : Nat) (sx : Bool) :
    Host.Outcome State Fault Refusal :=
  s.run { feats := [1, 0] } 2 2 0 fun k =>
    s.readAct k .load (zAddr (s.slot k) y off n) n n (.load (zDst x) n sx) 2 2

/-- A 16-bit store (R67). -/
def State.zstore (s : State) (x y : ZReg) (off : BitVec 2) (n : Nat) : Host.Outcome State Fault Refusal :=
  s.run { feats := [1, 0] } 2 1 0 fun k =>
    s.storeAct k .store (zAddr (s.slot k) y off n) n n (((s.slot k).read (zSrc x)).toNat % 2 ^ (8 * n)) 2 1

/-- ZADD (R67). -/
def execZadd (x y : ZReg) (s : State) : Host.Outcome State Fault Refusal := s.zop 1 x y (· + ·)

/-- ZSUB (R67). -/
def execZsub (x y : ZReg) (s : State) : Host.Outcome State Fault Refusal := s.zop 1 x y (· - ·)

/-- ZAND (R67). -/
def execZand (x y : ZReg) (s : State) : Host.Outcome State Fault Refusal := s.zop 1 x y (· &&& ·)

/-- ZOR (R67). -/
def execZor (x y : ZReg) (s : State) : Host.Outcome State Fault Refusal := s.zop 1 x y (· ||| ·)

/-- ZXOR (R67). -/
def execZxor (x y : ZReg) (s : State) : Host.Outcome State Fault Refusal := s.zop 1 x y (· ^^^ ·)

/-- ZMUL (R67). -/
def execZmul (x y : ZReg) (s : State) : Host.Outcome State Fault Refusal := s.zop 3 x y (· * ·)

/-- ZDIV (R67). -/
def execZdiv (x y : ZReg) (s : State) : Host.Outcome State Fault Refusal := s.zop 20 x y divide

/-- ZMIN (R67). -/
def execZmin (x y : ZReg) (s : State) : Host.Outcome State Fault Refusal := s.zop 1 x y smin

/-- ZMAX (R67). -/
def execZmax (x y : ZReg) (s : State) : Host.Outcome State Fault Refusal := s.zop 1 x y smax

/-- ZSHL (R67). -/
def execZshl (x y : ZReg) (s : State) : Host.Outcome State Fault Refusal := s.zop 1 x y (fun x y => x <<< low6 y)

/-- ZSHR (R67). -/
def execZshr (x y : ZReg) (s : State) : Host.Outcome State Fault Refusal := s.zop 1 x y (fun x y => x >>> low6 y)

/-- ZSAR (R67). -/
def execZsar (x y : ZReg) (s : State) : Host.Outcome State Fault Refusal := s.zop 1 x y (fun x y => x.sshiftRight (low6 y))

/-- ZMOV (R67). -/
def execZmov (x y : ZReg) (s : State) : Host.Outcome State Fault Refusal := s.zop 1 x y (fun _ y => y)

/-- ZNEG (R67). -/
def execZneg (x y : ZReg) (s : State) : Host.Outcome State Fault Refusal := s.zop 1 x y (fun _ y => 0 - y)

/-- ZADDI (R67). -/
def execZaddi (x : ZReg) (imm : BitVec 6) (s : State) : Host.Outcome State Fault Refusal :=
  s.alu 2 1 0 (zDst x) fun sl => sl.read (zSrc x) + imm.signExtend 64

/-- ZLI (R67). -/
def execZli (x : ZReg) (imm : BitVec 6) (s : State) : Host.Outcome State Fault Refusal :=
  s.alu 2 1 0 (zDst x) fun _ => imm.signExtend 64

/-- ZLD (R67). -/
def execZld (x y : ZReg) (off : BitVec 2) (s : State) :
    Host.Outcome State Fault Refusal := s.zload x y off 8 true

/-- ZLDW (R67). -/
def execZldw (x y : ZReg) (off : BitVec 2) (s : State) :
    Host.Outcome State Fault Refusal := s.zload x y off 4 true

/-- ZLDB (R67). -/
def execZldb (x y : ZReg) (off : BitVec 2) (s : State) :
    Host.Outcome State Fault Refusal := s.zload x y off 1 false

/-- ZST (R67). -/
def execZst (x y : ZReg) (off : BitVec 2) (s : State) :
    Host.Outcome State Fault Refusal := s.zstore x y off 8

/-- ZSTW (R67). -/
def execZstw (x y : ZReg) (off : BitVec 2) (s : State) :
    Host.Outcome State Fault Refusal := s.zstore x y off 4

/-- ZSTB (R67). -/
def execZstb (x y : ZReg) (off : BitVec 2) (s : State) :
    Host.Outcome State Fault Refusal := s.zstore x y off 1

/-- ZJ (R67): the displacement counts from the address of the ZJ itself. -/
def execZj (imm : BitVec 10) (s : State) : Host.Outcome State Fault Refusal :=
  s.branch 2 (fun _ => true) (fun sl => dispTarget sl.pc imm) id

/-- ZRET (R67, R129). -/
def execZret (s : State) : Host.Outcome State Fault Refusal :=
  s.run { feats := [1, 0] } 2 1 0 fun k => .ends ((s.modSlot k fun sl => sl.charge 1).retire k)

end Sys2Proof.Machine
end

