-- ==== Sys2Proof/Machine/Digest.lean ====
section
/-! DEFINITION. SHA-384, which measures the images of a boot (R393, R394), as FIPS 180-4 gives it (log 17). -/

namespace Sys2Proof.Machine

/-- The round constants: the first 64 bits of the fractional parts of the cube roots of the first 80 primes. -/
def shaK : List Word :=
  ([0x428A2F98D728AE22, 0x7137449123EF65CD, 0xB5C0FBCFEC4D3B2F, 0xE9B5DBA58189DBBC, 0x3956C25BF348B538, 0x59F111F1B605D019,
   0x923F82A4AF194F9B, 0xAB1C5ED5DA6D8118, 0xD807AA98A3030242, 0x12835B0145706FBE, 0x243185BE4EE4B28C, 0x550C7DC3D5FFB4E2,
   0x72BE5D74F27B896F, 0x80DEB1FE3B1696B1, 0x9BDC06A725C71235, 0xC19BF174CF692694, 0xE49B69C19EF14AD2, 0xEFBE4786384F25E3,
   0x0FC19DC68B8CD5B5, 0x240CA1CC77AC9C65, 0x2DE92C6F592B0275, 0x4A7484AA6EA6E483, 0x5CB0A9DCBD41FBD4, 0x76F988DA831153B5,
   0x983E5152EE66DFAB, 0xA831C66D2DB43210, 0xB00327C898FB213F, 0xBF597FC7BEEF0EE4, 0xC6E00BF33DA88FC2, 0xD5A79147930AA725,
   0x06CA6351E003826F, 0x142929670A0E6E70, 0x27B70A8546D22FFC, 0x2E1B21385C26C926, 0x4D2C6DFC5AC42AED, 0x53380D139D95B3DF,
   0x650A73548BAF63DE, 0x766A0ABB3C77B2A8, 0x81C2C92E47EDAEE6, 0x92722C851482353B] ++
   [0xA2BFE8A14CF10364, 0xA81A664BBC423001, 0xC24B8B70D0F89791, 0xC76C51A30654BE30, 0xD192E819D6EF5218, 0xD69906245565A910,
   0xF40E35855771202A, 0x106AA07032BBD1B8, 0x19A4C116B8D2D0C8, 0x1E376C085141AB53, 0x2748774CDF8EEB99, 0x34B0BCB5E19B48A8,
   0x391C0CB3C5C95A63, 0x4ED8AA4AE3418ACB, 0x5B9CCA4F7763E373, 0x682E6FF3D6B2B8A3, 0x748F82EE5DEFB2FC, 0x78A5636F43172F60,
   0x84C87814A1F0AB72, 0x8CC702081A6439EC, 0x90BEFFFA23631E28, 0xA4506CEBDE82BDE9, 0xBEF9A3F7B2C67915, 0xC67178F2E372532B,
   0xCA273ECEEA26619C, 0xD186B8C721C0C207, 0xEADA7DD6CDE0EB1E, 0xF57D4F7FEE6ED178, 0x06F067AA72176FBA, 0x0A637DC5A2C898A6,
   0x113F9804BEF90DAE, 0x1B710B35131C471B, 0x28DB77F523047D84, 0x32CAAB7B40C72493, 0x3C9EBE0A15C9BEBC, 0x431D67C49C100D4C,
   0x4CC5D4BECB3E42B6, 0x597F299CFC657E2A, 0x5FCB6FAB3AD6FAEC, 0x6C44198C4A475817]).map (BitVec.ofNat 64)

/-- The initial hash value: the same bits of the square roots of the ninth to sixteenth primes. -/
def shaH : Vector Word 8 :=
  #v[0xCBBB9D5DC1059ED8, 0x629A292A367CD507, 0x9159015A3070DD17, 0x152FECD8F70E5939,
   0x67332667FFC00B31, 0x8EB44A8768581511, 0xDB0C2E0D64F98FA7, 0x47B5481DBEFA4FA4].map (BitVec.ofNat 64)

/-- One word of the message schedule, from the sixteen words before it, newest first. -/
def shaNext (w : List Word) : Word :=
  let a := w.getD 14 0
  let b := w.getD 1 0
  w.getD 15 0 + (a.rotateRight 1 ^^^ a.rotateRight 8 ^^^ (a >>> 7)) + w.getD 6 0 +
    (b.rotateRight 19 ^^^ b.rotateRight 61 ^^^ (b >>> 6))

/-- `n` more words of the schedule, newest first. -/
def shaSchedule : Nat → List Word → List Word
  | 0, w => w
  | n + 1, w => shaSchedule n (shaNext w :: w)

/-- One round on the eight working variables, with a constant and a word of the schedule. -/
def shaRound (v : Vector Word 8) (kw : Word × Word) : Vector Word 8 :=
  let e := v[4]
  let a := v[0]
  let t := v[7] + (e.rotateRight 14 ^^^ e.rotateRight 18 ^^^ e.rotateRight 41) + ((e &&& v[5]) ^^^ (~~~e &&& v[6])) + kw.1 + kw.2
  let u := (a.rotateRight 28 ^^^ a.rotateRight 34 ^^^ a.rotateRight 39) + ((a &&& v[1]) ^^^ (a &&& v[2]) ^^^ (v[1] &&& v[2]))
  #v[t + u, a, v[1], v[2], v[3] + t, e, v[5], v[6]]

/-- The hash value after one block of sixteen words. -/
def shaBlock (h : Vector Word 8) (block : List Word) : Vector Word 8 :=
  let v := (shaK.zip (shaSchedule 64 block.reverse).reverse).foldl shaRound h
  Vector.ofFn fun i : Fin 8 => h[i] + v[i]

/-- The number in some bytes, most significant first. -/
def beNat (l : List Byte) : Nat := l.foldl (fun n b => n * 256 + b.toNat) 0

/-- The `n` words that some bytes hold, most significant byte first; bytes that are missing are 0. -/
def beWords (l : List Byte) (n : Nat) : List Word :=
  (List.range n).map fun i => BitVec.ofNat 64 (beNat ((List.range 8).map fun j => l.getD (8 * i + j) 0))

/-- The message with its padding, in blocks: a one bit, zero bits, and its length in bits in the last two words. -/
def shaBlocks (data : List Byte) : List (List Word) :=
  let n := data.length
  let blocks := (n + 17 + 127) / 128
  let w := beWords (data ++ [0x80#8]) (16 * blocks - 1) ++ [BitVec.ofNat 64 (8 * n)]
  (List.range blocks).map fun i => (w.drop (16 * i)).take 16

/-- SHA-384 of some bytes: the first six words of the hash value. -/
def sha384 (data : List Byte) : BitVec 384 :=
  let h := (shaBlocks data).foldl shaBlock shaH
  h[0] ++ h[1] ++ h[2] ++ h[3] ++ h[4] ++ h[5]

end Sys2Proof.Machine
end

