-- ==== Sys2Proof/Machine/SystemDie.lean ====
section
/-! DEFINITION. Events of the system die and the links: registers written by a system core (R4, R392), the
event unit (R396), Ethernet (R397, R398), links (R166, R399), reset (R393), attestation (R394) and the clock
(R401). -/

namespace Sys2Proof.Machine

/-! ### Registers and the event unit -/

/-- Whether a store of 2^size bytes reaches a memory-mapped register (R8, R146, R213, R363). -/
def registerStore (pa n : Nat) : Bool :=
  let inCore := (windowCore pa).isSome && decide (0xF0000 ≤ windowOff pa)
  let inModule := decide (0xFF00000000 ≤ pa) && decide (pa < 0x10000000000)
  let wide := decide (0xFF00000000 ≤ pa) && decide (pa < 0xFF00000800) ||
    decide (0xFF00004000 ≤ pa) && decide (pa < 0xFF00004900)
  (inCore || inModule) && decide (pa % n = 0) && (decide (n = 8) || (decide (n = 4) && !wide))

/-- The header of a message that a system core forms by a word-7 post: KIND 0, with sender fields that the spec gives
for a slot only (R171, R172, log 19). -/
def State.hartHeader (s : State) (mb type : Nat) : Word :=
  let src := Config.noticeSender s.tick
  s.header 0 (bits src 11 0) (bits src 14 12) (bits src 16 15) (bits src 22 17) false false mb type

/-- An 8-byte store of a system core to a mailbox or inbox line: it gathers in the core's post buffer, and a store to
word 7 posts it, with PRIV 1 (R14, R145, R249, R276, R326). -/
def State.hartStore (s : State) (hart pa : Nat) (v : Word) : State :=
  let off := windowOff pa
  let c := (windowCore pa).getD 0
  let isMail := decide (0xD0000 ≤ off) && decide (off < 0xD0100)
  if !isMail ∧ (inboxOf c off).isNone then s
  else
    let h := AMap.get .reset s.sdie.harts hart
    let w := (if h.postLine = some (pa / 64) then h.postBuf else .replicate 8 0).set (ix 8 (pa / 8)) v
    if pa / 8 % 8 ≠ 7 then s.modHart hart fun h => { h with postLine := some (pa / 64), postBuf := w }
    else
      let id := s.nextId
      let s := s.bump.modHart hart fun h => { h with postLine := none, postBuf := .replicate 8 0 }
      match inboxOf c off with
      | some inbox => s.modNet fun n =>
          { n with posts := n.posts ++ [⟨id, inbox, stamp inbox (Config.systemAsid s.tick) true w, none, 0, s.ns, none, none⟩] }
      | none => s.send sDieNo (s.hartHeader ((off - 0xD0000) / 64) (bits w[0] 7 0)) 0 (w[1].setWidth 32)
          #v[w[2], w[3], w[4], w[5], w[6], w[7]] c 0 .nothing false

/-- A store of 2^size bytes by a system core to an address of the module's physical map, aligned to its size: a
register, HBM, a scratchpad, or a mailbox or inbox line (R8, R354, R392). -/
def State.hartWrite (s : State) (hart pa n : Nat) (v : Word) : State :=
  let key := s.own pa
  if registerStore pa n then s.mmioWrite pa n v.toNat
  else if pa < hbmEnd then
    if s.retiredAt key then s else (s.open key n).storeOp key n v.toNat
  else
    match windowCore pa with
    | none => s
    | some _ =>
      if windowOff pa < 0x40000 then if s.bankGuarded key n true then s else s.storeOp key n v.toNat
      else if 0xD0000 ≤ windowOff pa ∧ windowOff pa < 0xF0000 ∧ n = 8 then s.hartStore hart pa v
      else s

/-- REGISTER_WRITE (R4, R392): a system core stores 2^size bytes. -/
def execRegisterWrite (place : HartPlace) (size : BitVec 2) (value : BitVec 64) (s : State) :
    Host.Outcome State Fault Refusal :=
  s.event (if place.pa % 2 ^ size.toNat = 0 then s.hartWrite (place.hart % 32) place.pa (2 ^ size.toNat) value else s)

/-- COALESCING_WINDOW (R396): the window of an event page ends, and the MSI that it held back is sent. -/
def execCoalescingWindow (page : Nat) (s : State) : Host.Outcome State Fault Refusal :=
  .next (match s.sdie.msiDue.find? fun e => e.1 = page with
    | some e => if e.2 ≤ s.ns then s.sendMsi page else s
    | none => s)

/-! ### Ethernet (R397, R398) -/

/-- A dropped frame is counted. -/
def State.dropFrame (s : State) : State := s.modSDie fun d => { d with drops := d.drops + 1 }

/-- What the flow table matches on (R398): the destination MAC, the VLAN of a tagged frame, the protocol of an IP
packet, and the destination port of TCP and UDP. -/
structure FrameKey where
  mac      : BitVec 48
  vlan     : Option (BitVec 12)
  protocol : Option (BitVec 8)
  port     : Option (BitVec 16)
  deriving DecidableEq, Repr

/-- These fields of a frame, at the places that IEEE 802.3 and 802.1Q, IP, TCP and UDP give them (log 31). -/
def frameKey (b : List Byte) : FrameKey :=
  let at_ (i n : Nat) : Nat := beNat ((b.drop i).take n)
  let tagged := decide (at_ 12 2 = 0x8100)
  let o := if tagged then 18 else 14
  let v4 := decide (at_ (o - 2) 2 = 0x0800)
  let v6 := decide (at_ (o - 2) 2 = 0x86DD)
  let protocol := at_ (if v4 then o + 9 else o + 6) 1
  let ports := if v4 then o + 4 * (at_ o 1 % 16) else o + 40
  { mac := BitVec.ofNat 48 (at_ 0 6)
    vlan := if tagged then some (BitVec.ofNat 12 (at_ 14 2)) else none
    protocol := if v4 || v6 then some (BitVec.ofNat 8 protocol) else none
    port := if (v4 || v6) && (protocol = 6 || protocol = 17) then some (BitVec.ofNat 16 (at_ (ports + 2) 2)) else none }

/-- Whether an entry matches: each field that it asks for. -/
def flowFits (e : BitVec 512) (k : FrameKey) : Bool :=
  Config.flowUsed e && ((Config.flowMac e).all fun x => x = k.mac) && ((Config.flowVlan e).all fun x => k.vlan = some x) &&
    ((Config.flowProtocol e).all fun x => k.protocol = some x) && (Config.flowPort e).all fun x => k.port = some x

/-- The lowest entry of the flow table that matches a frame. -/
def State.flowMatch (s : State) (f : Frame) : Option (Nat × BitVec 512) :=
  ((List.range 4096).map fun n => (n, AMap.get 0#512 s.sdie.flow n)).find? fun e => flowFits e.2 (frameKey f.bytes)

/-- What happens to a frame: an action and the entry that gives it; a frame that no entry matches takes
ACT 3, and one of more than 9,216 bytes is dropped. -/
def State.flowAction (s : State) (f : Frame) : Nat × Nat × BitVec 512 :=
  if 9216 < f.bytes.length then (0, 0, 0)
  else match s.flowMatch f with
    | some (n, e) => ((Config.flowAct e).toNat, n, e)
    | none => (3, 0, 0)

/-- FRAME_DROP (R398, ACT 0). -/
def execFrameDrop (f : Frame) (s : State) : Host.Outcome State Fault Refusal :=
  .next (if (s.flowAction f).1 = 0 then s.dropFrame else s)

/-- FRAME_DEFAULT (R398, ACT 3): the system cores' default ring. -/
def execFrameDefault (f : Frame) (s : State) : Host.Outcome State Fault Refusal :=
  .next (if (s.flowAction f).1 = 3 then s.modSDie fun d => { d with defRing := d.defRing ++ [f] } else s)

/-- The size of an entry's buffers: 2, 4, 8 or 16 KiB (R398). -/
def bufferSize (e : BitVec 512) : Nat := 2048 * 2 ^ (Config.flowBuffer e % 4)

/-- The next buffer of an entry's receive ring, where it can take a frame of `n` bytes. Only a ring that frames have
filled once may be full (log 31). -/
def State.nextBuffer (s : State) (no : Nat) (e : BitVec 512) (n : Nat) : Option Word :=
  let i := AMap.get 0 s.sdie.rxIndex no
  if Config.flowCount e = 0 ∨ (Config.flowCount e ≤ i ∧ Config.ringFull s.tick) ∨ bufferSize e < n then none
  else some (Config.flowBase e + BitVec.ofNat 64 (bufferSize e * (i % Config.flowCount e)))

/-- Writes bytes through an address space, page by page; nothing where a page cannot be written. -/
def State.writeThrough (s : State) (c : Nat) (asid : BitVec 16) (va : Nat) (data : List Byte) : Option State :=
  if data = [] then some s
  else match s.foot c asid 3 .store [(va, data.length)] (va, va + data.length) with
    | .error _ => none
    | .ok f => if (s.reachable f.pieces).2.isSome then none else some (s.scatter f.pieces (data.map fun b => (b, false)))

/-- Claims the next slot of a queue as QCLAIM does (R153): its index. -/
def State.claimSlot (s : State) (cb : Nat) : Option (State × Nat × Nat) :=
  let s := (s.open cb 24).resolve cb 24
  let w := s.loadLE cb 8
  let r := s.loadLE (cb + 8) 8
  let cap := s.loadLE (cb + 16) 8
  if cap ≠ 0 ∧ (w + 2 ^ 64 - r) % 2 ^ 64 + 1 ≤ cap then some (s.storeOp cb 8 ((w + 1) % 2 ^ 64), w, cap) else none

/-- The record or packet of a flow table entry. -/
def flowRecord (e : BitVec 512) : List Word := (List.range 8).map (Config.flowWord e)

/-- The bytes of a list of words. -/
def wordBytes (l : List Word) : List Byte := l.flatMap fun w => leBytes w.toNat 8

/-- The ring's next buffer after a frame (R398). -/
def State.advanceRing (s : State) (no : Nat) : State :=
  s.modSDie fun d => { d with rxIndex := d.rxIndex.set no (AMap.get 0 d.rxIndex no + 1) }

/-- The frame whose record slot `w` of a launch queue holds: its buffer and its length (R398). -/
def State.keepFrame (s : State) (die q w : Nat) (buf : Word) (n : Nat) : State :=
  let l := s.launchQueue die q
  s.modDie die fun d =>
    { d with lqs := d.lqs.set (ix 16 q) ({ l with frames := l.frames ++ [(w, buf, BitVec.ofNat 64 n)] }) }

/-- A frame for a launch queue (R398, ACT 1): the buffer, the record with its payload, and then the ready word (R310,
R395). -/
def State.frameLaunch (s : State) (no : Nat) (e : BitVec 512) (data : List Byte) : Option State := do
  let die := Config.flowQueue e / 16 % 4
  let q := Config.flowQueue e % 16
  let d := s.launchQueue die q
  let c := die * 1024
  let buf ← s.nextBuffer no e data.length
  let cb ← if bit d.cb 0 then s.queuePlace die q .store (d.cb &&& ~~~31#64) else none
  let (s, w, cap) ← s.claimSlot cb
  let r := flowRecord e
  let slot := (d.ring &&& ~~~127#64) + BitVec.ofNat 64 (128 * (w % cap))
  let s ← s.writeThrough c d.asid buf.toNat data
  let s ← s.writeThrough c d.asid slot.toNat (wordBytes r)
  let s ← s.writeThrough c d.asid (slot.toNat + 0x40) (leBytes (w % 2 ^ 32) 8)
  pure ((s.keepFrame die q w buf data.length).advanceRing no)

/-- A frame for a copy queue (R398, ACT 2): the buffer, then the packet with SRC at it (R310). -/
def State.frameCopy (s : State) (no : Nat) (e : BitVec 512) (data : List Byte) : Option State := do
  let cl := Config.flowQueue e / 64 % 16
  let q := Config.flowQueue e % 64
  let b := s.queue cl q
  let buf ← s.nextBuffer no e data.length
  let cb ← if b.bound then (s.unitPlace b.core b.asid b.cls .store b.cb).toOption else none
  let (s, w, cap) ← s.claimSlot cb
  let r := (flowRecord e).set 2 buf
  let slot := (b.ring + BitVec.ofNat 64 (64 * (w % cap))).toNat
  let s ← s.writeThrough b.core b.asid buf.toNat data
  let s ← s.writeThrough b.core b.asid (slot + 8) (wordBytes r.tail)
  let s ← s.writeThrough b.core b.asid slot (leBytes (r.getD 0 0).toNat 4 ++ leBytes w 4)
  pure (s.advanceRing no)

/-- FRAME_LAUNCH (R398, ACT 1): a frame that cannot be delivered whole is dropped and counted. -/
def execFrameLaunch (f : Frame) (s : State) : Host.Outcome State Fault Refusal :=
  let a := s.flowAction f
  s.event (if a.1 = 1 then (s.frameLaunch a.2.1 a.2.2 f.bytes).getD s.dropFrame else s)

/-- FRAME_COPY (R398, ACT 2). -/
def execFrameCopy (f : Frame) (s : State) : Host.Outcome State Fault Refusal :=
  let a := s.flowAction f
  s.event (if a.1 = 2 then (s.frameCopy a.2.1 a.2.2 f.bytes).getD s.dropFrame else s)

/-- Changes an Ethernet port. -/
def State.modPort (s : State) (port : Nat) (f : Port → Port) : State :=
  s.modSDie fun d => { d with ports := d.ports.set (ix 8 port) (f d.ports[ix 8 port]) }

/-- BAD_FCS_FRAME (R397): dropped and counted. -/
def execBadFcsFrame (port : Nat) (s : State) : Host.Outcome State Fault Refusal :=
  .next (s.modPort port fun p => { p with badFcs := p.badFcs + 1 })

/-- Nanoseconds of a pause of `q` quanta of 512 bit times at 800 Gb/s (R397, log 31). -/
def pauseTime (q : BitVec 16) : Nat := (q.toNat * 64 + 99) / 100

/-- PRIORITY_FLOW_CONTROL_FRAME (R397): every enabled priority pauses from now on for its time. -/
def execPriorityFlowControlFrame (port : Nat) (enable : BitVec 8) (pause : Vector (BitVec 16) 8) (s : State) :
    Host.Outcome State Fault Refusal :=
  .next (s.modPort port fun p =>
    { p with paused := Vector.ofFn fun i => if enable.getLsbD i.val then s.ns + pauseTime pause[i] else p.paused[i] })

/-! ### Links (R166, R399) -/

/-- CRC_REPLAY (R166): a replay changes only latency. -/
def execCrcReplay (_link : Nat) (s : State) : Host.Outcome State Fault Refusal := .next s

/-- LINK_DOWN (R399): the path to a node goes down, or returns. -/
def execLinkDown (node : BitVec 16) (down : Bool) (s : State) : Host.Outcome State Fault Refusal :=
  .next (
    if node.toNat = s.node then s
    else if down then
      if s.module.down.any fun e => e.1 = node then s
      else s.modModule fun m => { m with down := m.down ++ [(node, s.ns)] }
    else s.modModule fun m =>
      { m with down := m.down.filter fun e => e.1 ≠ node, lost := m.lost.filter fun e => e ≠ node })

/-- Accesses that wait for a node end with 0x3C1; its posted stores are lost. -/
def State.failAccesses (s : State) (node : Nat) : State :=
  let gone (r : Request) : Bool := decide (nodeOf r.key = node)
  s.modNet fun q =>
    { q with
      reqs := q.reqs.filter fun r => !gone r
      answers := q.answers ++ (q.reqs.filter gone).filterMap fun r => r.cont.map fun c => r.answer c 0x3C1 0 }

/-- The ops of a play that wait for a rank of a lost node are given up. -/
def Comm.giveUp (x : Comm) (node : Nat) (p : Play) : Play :=
  let lost (o : PlanOp) : Bool := (x.targets o).any fun r => (x.ranks[r]?).any fun key => decide (key / 4 = node)
  match x.plan with
  | none => p
  | some pl => { p with ops := (pl.ops.zip p.ops).map fun e => if lost e.1 ∧ e.2.isStarted then .waiting 0 0 0 else e.2 }

/-- The op that a Runner has chosen of a communicator is given up where it waits for a lost node. -/
def State.dropChosen (s : State) (die c node : Nat) : State :=
  match s.chosenOp die with
  | some (d, _, o) =>
    if d = c ∧ (((s.comm die c).targets o).any fun r => ((s.comm die c).ranks[r]?).any fun key => decide (key / 4 = node)) then
      s.modDie die fun u => { u with chosen := none }
    else s
  | none => s

/-- A play with a rank on a lost node aborts with 0x3C1 (R341, R399). -/
def State.abortLost (node : Nat) (s : State) (e : Nat × Nat) : State :=
  let x := s.comm e.1 e.2
  match x.play with
  | none => s
  | some p =>
    if x.ranks.any fun key => decide (key / 4 = node) then
      ((s.dropChosen e.1 e.2 node).modComm e.1 e.2 fun y => { y with play := some (x.giveUp node p) }).abortPlay e.1 e.2 0x3C1#10 x.rank true
    else s

/-- NODE_UNREACHABLE (R399): a node whose path has been down for 1 ms. -/
def execNodeUnreachable (node : BitVec 16) (s : State) : Host.Outcome State Fault Refusal :=
  s.event (
    if (s.module.down.any fun e => decide (e.1 = node) && decide (e.2 + 1000000 ≤ s.ns)) ∧ !s.module.lost.contains node then
      let s := (s.modModule fun m => { m with lost := m.lost ++ [node] }).failAccesses node.toNat
      ((List.range 4).flatMap fun d => (List.range 4).map fun c => (d, c)).foldl (State.abortLost node.toNat) s
    else s)

/-! ### Reset, attestation and clock (R393, R394, R401) -/

/-- Creates a class 3 actor of the firmware, where its core takes it (R191, R393). -/
def State.bootActor (s : State) (a : BootActor) : State :=
  let r : Creation := ⟨a.desc, a.gen, a.act, 3, a.rres, a.colour, a.mb0q, 0, a.asid⟩
  match s.placeFor (a.core % 4096) r with
  | .ok n => if r.fits then s.create (a.core % 4096) n r none else s
  | .error _ => s

/-- The S-die after a boot that completes (R393): what the straps and the configuration block set, and system core 0
started at its entry. -/
def bootDie (b : Boot) (no : Nat) : SDie :=
  { SDie.reset with
    harts := [(0, { Hart.reset with started := true, entry := b.entry })]
    reserved := b.reserved
    source := b.source
    pcie := b.pcie
    boot := no
    measured := some (b.images.map sha384) }

/-- The module right after boot `no`, which completes (R393): the straps and the configuration block are in force,
and the firmware has put its image into memory and created its actors. -/
def bootState (b : Boot) (no : Nat) : State :=
  let s := { State.reset with
    module := { Module.reset with nodeX := b.nodeX, nodeY := b.nodeY, grace := b.grace }
    hbm := Vector.ofFn fun i => { Stack.reset with ccn := b.ccn[i], scrubp := b.scrubp }
    sdie := bootDie b no }
  b.actors.foldl State.bootActor (b.image.foldl (fun s e => s.store (s.own (e.1 % hbmEnd)) e.2) s)

/-- The module after a boot that a stage has stopped (R393): the stage's code in BOOTSTAT, what the straps fix, and
nothing runs. -/
def failedBoot (b : Boot) (no : Nat) : State :=
  { State.reset with
    module := { Module.reset with nodeX := b.nodeX, nodeY := b.nodeY }
    sdie := { SDie.reset with bootstat := b.failStage, harts := [], source := b.source, pcie := b.pcie, boot := no } }

/-- Module reset of a module (R393): memory of other modules, the world's time and what it still sends stay. -/
def State.restart (s : State) (b : Boot) : State :=
  let no := s.sdie.boot + 1
  let r := if b.failStage = 0 then bootState b no else failedBoot b no
  let other (key : Nat) : Bool := decide (nodeOf key ≠ s.node) && decide (nodeOf key ≠ r.node)
  { r with
    mem := (s.mem.filter fun e => other e.1 && decide (nodeOf e.1 < r.node)) ++ r.mem ++
      s.mem.filter fun e => other e.1 && decide (r.node < nodeOf e.1)
    poison := s.poison.filter fun w => other (8 * w)
    ns := s.ns
    tick := s.tick
    nextId := s.nextId
    mover := s.mover
    inputs := s.inputs }

/-- MODULE_RESET (R393); a failure code is that of a stage. -/
def execModuleReset (b : Boot) (s : State) : Host.Outcome State Fault Refusal :=
  .next (if b.failStage.toNat ≤ 4 then s.restart b else s)

/-- The digest of image `i` of the boot in force. -/
def State.digest (s : State) (i : Fin 3) : BitVec 384 := (s.sdie.measured.map fun v => v[i]).getD (Config.digest i)

/-- The 256 bytes of an attestation report: the nonce, the three digests of the boot in force, the node id, and bytes
that no field names; where each part lies is the model's (R394, log 17). -/
def State.attestation (s : State) (nonce : BitVec 384) : BitVec 2048 :=
  Config.reportRest s.sdie.boot ++ BitVec.ofNat 16 s.node ++ s.digest 2 ++ s.digest 1 ++ s.digest 0 ++ nonce

/-- ATTESTATION_REPORT (R394): the report, and its signature by the identity key. -/
def execAttestationReport (nonce : BitVec 384) (s : State) : Host.Outcome State Fault Refusal :=
  .next (s.modSDie fun d => { d with report := some (s.attestation nonce, Config.signature s.tick) })

/-- CLOCK_CHANGE (R401): one of the five clocks; a reduction is counted. -/
def execClockChange (mhz : BitVec 10) (therm pwr : Bool) (s : State) : Host.Outcome State Fault Refusal :=
  .next (
    if [940, 880, 820, 760, 700].contains mhz.toNat then
      s.modSDie fun d =>
        { d with mhz := mhz, therm := therm, pwr := pwr, throt := if mhz < d.mhz then sat 32 d.throt else d.throt }
    else s)

end Sys2Proof.Machine
end

