-- ==== Sys2Proof/Machine/Dispatch.lean ====
section
/-! DEFINITION. The dispatcher: one meaning for each constructor of Instr. -/

namespace Sys2Proof.Machine

/-- What an instruction or an event does. -/
def exec (i : Instr) (s : State) : Host.Outcome State Fault Refusal :=
  match i with
  | .add d a b g => Sys2Proof.Machine.execAdd d a b g s
  | .sub d a b g => Sys2Proof.Machine.execSub d a b g s
  | .mul d a b g => Sys2Proof.Machine.execMul d a b g s
  | .mulh d a b g => Sys2Proof.Machine.execMulh d a b g s
  | .div d a b g => Sys2Proof.Machine.execDiv d a b g s
  | .rem d a b g => Sys2Proof.Machine.execRem d a b g s
  | .and d a b g => Sys2Proof.Machine.execAnd d a b g s
  | .or d a b g => Sys2Proof.Machine.execOr d a b g s
  | .xor d a b g => Sys2Proof.Machine.execXor d a b g s
  | .shl d a b g => Sys2Proof.Machine.execShl d a b g s
  | .shr d a b g => Sys2Proof.Machine.execShr d a b g s
  | .sar d a b g => Sys2Proof.Machine.execSar d a b g s
  | .sel d a b p => Sys2Proof.Machine.execSel d a b p s
  | .min d a b g => Sys2Proof.Machine.execMin d a b g s
  | .max d a b g => Sys2Proof.Machine.execMax d a b g s
  | .cmpEq pd a b g => Sys2Proof.Machine.execCmpEq pd a b g s
  | .cmpNe pd a b g => Sys2Proof.Machine.execCmpNe pd a b g s
  | .cmpLt pd a b g => Sys2Proof.Machine.execCmpLt pd a b g s
  | .cmpGe pd a b g => Sys2Proof.Machine.execCmpGe pd a b g s
  | .cmpLe pd a b g => Sys2Proof.Machine.execCmpLe pd a b g s
  | .cmpGt pd a b g => Sys2Proof.Machine.execCmpGt pd a b g s
  | .cmpLtn pd a b g => Sys2Proof.Machine.execCmpLtn pd a b g s
  | .cmpGen pd a b g => Sys2Proof.Machine.execCmpGen pd a b g s
  | .cmpLen pd a b g => Sys2Proof.Machine.execCmpLen pd a b g s
  | .cmpGtn pd a b g => Sys2Proof.Machine.execCmpGtn pd a b g s
  | .cmpAny pd a b g => Sys2Proof.Machine.execCmpAny pd a b g s
  | .cmpNone pd a b g => Sys2Proof.Machine.execCmpNone pd a b g s
  | .cmpAll pd a b g => Sys2Proof.Machine.execCmpAll pd a b g s
  | .cmpNall pd a b g => Sys2Proof.Machine.execCmpNall pd a b g s
  | .cmpBit pd a b g => Sys2Proof.Machine.execCmpBit pd a b g s
  | .cmpNbit pd a b g => Sys2Proof.Machine.execCmpNbit pd a b g s
  | .addi d a imm => Sys2Proof.Machine.execAddi d a imm s
  | .logiAnd d a v => Sys2Proof.Machine.execLogiAnd d a v s
  | .logiOr d a v => Sys2Proof.Machine.execLogiOr d a v s
  | .logiXor d a v => Sys2Proof.Machine.execLogiXor d a v s
  | .logiAndn d a v => Sys2Proof.Machine.execLogiAndn d a v s
  | .logiOrn d a v => Sys2Proof.Machine.execLogiOrn d a v s
  | .logiXnor d a v => Sys2Proof.Machine.execLogiXnor d a v s
  | .shiShl d a n => Sys2Proof.Machine.execShiShl d a n s
  | .shiShr d a n => Sys2Proof.Machine.execShiShr d a n s
  | .shiSar d a n => Sys2Proof.Machine.execShiSar d a n s
  | .shiRol d a n => Sys2Proof.Machine.execShiRol d a n s
  | .shiRor d a n => Sys2Proof.Machine.execShiRor d a n s
  | .lim d imm => Sys2Proof.Machine.execLim d imm s
  | .bextU d a v => Sys2Proof.Machine.execBextU d a v s
  | .bextS d a v => Sys2Proof.Machine.execBextS d a v s
  | .bextI8 d a v => Sys2Proof.Machine.execBextI8 d a v s
  | .bextN8 d a v => Sys2Proof.Machine.execBextN8 d a v s
  | .bextI16 d a v => Sys2Proof.Machine.execBextI16 d a v s
  | .bextN16 d a v => Sys2Proof.Machine.execBextN16 d a v s
  | .bextI32 d a v => Sys2Proof.Machine.execBextI32 d a v s
  | .bextN32 d a v => Sys2Proof.Machine.execBextN32 d a v s
  | .binsIns d a v => Sys2Proof.Machine.execBinsIns d a v s
  | .binsB8 d a v => Sys2Proof.Machine.execBinsB8 d a v s
  | .binsB16 d a v => Sys2Proof.Machine.execBinsB16 d a v s
  | .binsB32 d a v => Sys2Proof.Machine.execBinsB32 d a v s
  | .fsh d a b g => Sys2Proof.Machine.execFsh d a b g s
  | .bcntPop d a => Sys2Proof.Machine.execBcntPop d a s
  | .bcntClz d a => Sys2Proof.Machine.execBcntClz d a s
  | .bcntCtz d a => Sys2Proof.Machine.execBcntCtz d a s
  | .bcntClo d a => Sys2Proof.Machine.execBcntClo d a s
  | .bcntCto d a => Sys2Proof.Machine.execBcntCto d a s
  | .bcntRev d a => Sys2Proof.Machine.execBcntRev d a s
  | .bcntBsw d a => Sys2Proof.Machine.execBcntBsw d a s
  | .brT p disp => Sys2Proof.Machine.execBrT p disp s
  | .brF p disp => Sys2Proof.Machine.execBrF p disp s
  | .j disp => Sys2Proof.Machine.execJ disp s
  | .jl disp => Sys2Proof.Machine.execJl disp s
  | .jr d a imm => Sys2Proof.Machine.execJr d a imm s
  | .lset k a => Sys2Proof.Machine.execLset k a s
  | .lend n disp => Sys2Proof.Machine.execLend n disp s
  | .plogClr pd pa pb g => Sys2Proof.Machine.execPlogClr pd pa pb g s
  | .plogNor pd pa pb g => Sys2Proof.Machine.execPlogNor pd pa pb g s
  | .plogAndna pd pa pb g => Sys2Proof.Machine.execPlogAndna pd pa pb g s
  | .plogNota pd pa pb g => Sys2Proof.Machine.execPlogNota pd pa pb g s
  | .plogAndnb pd pa pb g => Sys2Proof.Machine.execPlogAndnb pd pa pb g s
  | .plogNotb pd pa pb g => Sys2Proof.Machine.execPlogNotb pd pa pb g s
  | .plogXor pd pa pb g => Sys2Proof.Machine.execPlogXor pd pa pb g s
  | .plogNand pd pa pb g => Sys2Proof.Machine.execPlogNand pd pa pb g s
  | .plogAnd pd pa pb g => Sys2Proof.Machine.execPlogAnd pd pa pb g s
  | .plogXnor pd pa pb g => Sys2Proof.Machine.execPlogXnor pd pa pb g s
  | .plogMovb pd pa pb g => Sys2Proof.Machine.execPlogMovb pd pa pb g s
  | .plogOrna pd pa pb g => Sys2Proof.Machine.execPlogOrna pd pa pb g s
  | .plogMova pd pa pb g => Sys2Proof.Machine.execPlogMova pd pa pb g s
  | .plogOrnb pd pa pb g => Sys2Proof.Machine.execPlogOrnb pd pa pb g s
  | .plogOr pd pa pb g => Sys2Proof.Machine.execPlogOr pd pa pb g s
  | .plogSet pd pa pb g => Sys2Proof.Machine.execPlogSet pd pa pb g s
  | .cset a mask => Sys2Proof.Machine.execCset a mask s
  | .adr k d a v => Sys2Proof.Machine.execAdr k d a v s
  | .hret g => Sys2Proof.Machine.execHret g s
  | .hint kind imm => Sys2Proof.Machine.execHint kind imm s
  | .getcPc d => Sys2Proof.Machine.execGetcPc d s
  | .getcHdr0 d => Sys2Proof.Machine.execGetcHdr0 d s
  | .getcHdr1 d => Sys2Proof.Machine.execGetcHdr1 d s
  | .getcPrd d => Sys2Proof.Machine.execGetcPrd d s
  | .ld d b sz off g => Sys2Proof.Machine.execLd d b sz off g s
  | .ldn d b sz off g => Sys2Proof.Machine.execLdn d b sz off g s
  | .st d b sz off g => Sys2Proof.Machine.execSt d b sz off g s
  | .ldh t b off g => Sys2Proof.Machine.execLdh t b off g s
  | .sth t b off g => Sys2Proof.Machine.execSth t b off g s
  | .amoAdd d a v => Sys2Proof.Machine.execAmoAdd d a v s
  | .amoAnd d a v => Sys2Proof.Machine.execAmoAnd d a v s
  | .amoOr d a v => Sys2Proof.Machine.execAmoOr d a v s
  | .amoXor d a v => Sys2Proof.Machine.execAmoXor d a v s
  | .amoMin d a v => Sys2Proof.Machine.execAmoMin d a v s
  | .amoMax d a v => Sys2Proof.Machine.execAmoMax d a v s
  | .amoSwp d a v => Sys2Proof.Machine.execAmoSwp d a v s
  | .amoA96 d a v => Sys2Proof.Machine.execAmoA96 d a v s
  | .casW d a v => Sys2Proof.Machine.execCasW d a v s
  | .casD d a v => Sys2Proof.Machine.execCasD d a v s
  | .qclaim d a v => Sys2Proof.Machine.execQclaim d a v s
  | .fenceAcq scope => Sys2Proof.Machine.execFenceAcq scope s
  | .fenceRel scope => Sys2Proof.Machine.execFenceRel scope s
  | .fenceFull scope => Sys2Proof.Machine.execFenceFull scope s
  | .waddrEq d a v => Sys2Proof.Machine.execWaddrEq d a v s
  | .waddrNe d a v => Sys2Proof.Machine.execWaddrNe d a v s
  | .waddrGes d a v => Sys2Proof.Machine.execWaddrGes d a v s
  | .waddrAny d a v => Sys2Proof.Machine.execWaddrAny d a v s
  | .wbead ld st cp tl => Sys2Proof.Machine.execWbead ld st cp tl s
  | .pwld d b sz sx w g => Sys2Proof.Machine.execPwld d b sz sx w g s
  | .ldx d b sz sx k g => Sys2Proof.Machine.execLdx d b sz sx k g s
  | .stx d b sz k g => Sys2Proof.Machine.execStx d b sz k g s
  | .send a b type mb => Sys2Proof.Machine.execSend a b type mb s
  | .sendr a b type mb => Sys2Proof.Machine.execSendr a b type mb s
  | .mbcfgSet d a v => Sys2Proof.Machine.execMbcfgSet d a v s
  | .mbcfgOff d v => Sys2Proof.Machine.execMbcfgOff d v s
  | .mbcfgKey d a v => Sys2Proof.Machine.execMbcfgKey d a v s
  | .mbcfgStat d v => Sys2Proof.Machine.execMbcfgStat d v s
  | .mbcfgRcan d => Sys2Proof.Machine.execMbcfgRcan d s
  | .actorNew d a => Sys2Proof.Machine.execActorNew d a s
  | .actorExit => Sys2Proof.Machine.execActorExit s
  | .actorKill d a => Sys2Proof.Machine.execActorKill d a s
  | .launch d a v => Sys2Proof.Machine.execLaunch d a v s
  | .joinStat d a => Sys2Proof.Machine.execJoinStat d a s
  | .joinKill d a => Sys2Proof.Machine.execJoinKill d a s
  | .wlapp d a v => Sys2Proof.Machine.execWlapp d a v s
  | .wltakeCore d v => Sys2Proof.Machine.execWltakeCore d v s
  | .wltakeQuad d v => Sys2Proof.Machine.execWltakeQuad d v s
  | .wltakeClus d v => Sys2Proof.Machine.execWltakeClus d v s
  | .barr d a => Sys2Proof.Machine.execBarr d a s
  | .bwait d a v => Sys2Proof.Machine.execBwait d a v s
  | .balloc scope d a => Sys2Proof.Machine.execBalloc scope d a s
  | .bfree d a => Sys2Proof.Machine.execBfree d a s
  | .quiesArm d a v => Sys2Proof.Machine.execQuiesArm d a v s
  | .quiesDisarm d a v => Sys2Proof.Machine.execQuiesDisarm d a v s
  | .quiesTest d a v => Sys2Proof.Machine.execQuiesTest d a v s
  | .rgsetRd d a v => Sys2Proof.Machine.execRgsetRd d a v s
  | .rgsetWr d a v => Sys2Proof.Machine.execRgsetWr d a v s
  | .rgsetClr d a => Sys2Proof.Machine.execRgsetClr d a s
  | .mma td ta tb g => Sys2Proof.Machine.execMma td ta tb g s
  | .mzeroZero td g => Sys2Proof.Machine.execMzeroZero td g s
  | .mzeroLoad td ta g => Sys2Proof.Machine.execMzeroLoad td ta g s
  | .mzeroAdd td ta g => Sys2Proof.Machine.execMzeroAdd td ta g s
  | .mzeroStat td ta g => Sys2Proof.Machine.execMzeroStat td ta g s
  | .mcvtRne td ta ctl g => Sys2Proof.Machine.execMcvtRne td ta ctl g s
  | .mcvtRtz td ta ctl g => Sys2Proof.Machine.execMcvtRtz td ta ctl g s
  | .mcvtRdn td ta ctl g => Sys2Proof.Machine.execMcvtRdn td ta ctl g s
  | .mcvtRup td ta ctl g => Sys2Proof.Machine.execMcvtRup td ta ctl g s
  | .mcvtSrk td ta ctl g => Sys2Proof.Machine.execMcvtSrk td ta ctl g s
  | .mresc td ta tb g => Sys2Proof.Machine.execMresc td ta tb g s
  | .mstatRd td ta g => Sys2Proof.Machine.execMstatRd td ta g s
  | .mstatRdclr td ta g => Sys2Proof.Machine.execMstatRdclr td ta g s
  | .manch td g => Sys2Proof.Machine.execManch td g s
  | .mbput td ta g => Sys2Proof.Machine.execMbput td ta g s
  | .mpost td g => Sys2Proof.Machine.execMpost td g s
  | .vmapAdd td ta tb ctl g => Sys2Proof.Machine.execVmapAdd td ta tb ctl g s
  | .vmapSub td ta tb ctl g => Sys2Proof.Machine.execVmapSub td ta tb ctl g s
  | .vmapMul td ta tb ctl g => Sys2Proof.Machine.execVmapMul td ta tb ctl g s
  | .vmapMin td ta tb ctl g => Sys2Proof.Machine.execVmapMin td ta tb ctl g s
  | .vmapMax td ta tb ctl g => Sys2Proof.Machine.execVmapMax td ta tb ctl g s
  | .vmapAbs td ta ctl g => Sys2Proof.Machine.execVmapAbs td ta ctl g s
  | .vmapNeg td ta ctl g => Sys2Proof.Machine.execVmapNeg td ta ctl g s
  | .vfmaFma td ta tb ctl g => Sys2Proof.Machine.execVfmaFma td ta tb ctl g s
  | .vfmaFms td ta tb ctl g => Sys2Proof.Machine.execVfmaFms td ta tb ctl g s
  | .vfmaFnma td ta tb ctl g => Sys2Proof.Machine.execVfmaFnma td ta tb ctl g s
  | .vfmaFnms td ta tb ctl g => Sys2Proof.Machine.execVfmaFnms td ta tb ctl g s
  | .vcmpEq td ta tb g => Sys2Proof.Machine.execVcmpEq td ta tb g s
  | .vcmpNe td ta tb g => Sys2Proof.Machine.execVcmpNe td ta tb g s
  | .vcmpLt td ta tb g => Sys2Proof.Machine.execVcmpLt td ta tb g s
  | .vcmpLe td ta tb g => Sys2Proof.Machine.execVcmpLe td ta tb g s
  | .vcmpGt td ta tb g => Sys2Proof.Machine.execVcmpGt td ta tb g s
  | .vcmpGe td ta tb g => Sys2Proof.Machine.execVcmpGe td ta tb g s
  | .vcmpUn td ta tb g => Sys2Proof.Machine.execVcmpUn td ta tb g s
  | .vcmpOrd td ta tb g => Sys2Proof.Machine.execVcmpOrd td ta tb g s
  | .vlogAnd td ta tb g => Sys2Proof.Machine.execVlogAnd td ta tb g s
  | .vlogOr td ta tb g => Sys2Proof.Machine.execVlogOr td ta tb g s
  | .vlogXor td ta tb g => Sys2Proof.Machine.execVlogXor td ta tb g s
  | .vlogAndn td ta tb g => Sys2Proof.Machine.execVlogAndn td ta tb g s
  | .vlogNot td ta g => Sys2Proof.Machine.execVlogNot td ta g s
  | .vlogMnot td ta g => Sys2Proof.Machine.execVlogMnot td ta g s
  | .vshfShl td ta tb g => Sys2Proof.Machine.execVshfShl td ta tb g s
  | .vshfShr td ta tb g => Sys2Proof.Machine.execVshfShr td ta tb g s
  | .vshfSar td ta tb g => Sys2Proof.Machine.execVshfSar td ta tb g s
  | .vshfRshr td ta tb g => Sys2Proof.Machine.execVshfRshr td ta tb g s
  | .vredSum td ta ctl g => Sys2Proof.Machine.execVredSum td ta ctl g s
  | .vredMax td ta ctl g => Sys2Proof.Machine.execVredMax td ta ctl g s
  | .vredMin td ta ctl g => Sys2Proof.Machine.execVredMin td ta ctl g s
  | .vredAmax td ta ctl g => Sys2Proof.Machine.execVredAmax td ta ctl g s
  | .vredImax td ta g => Sys2Proof.Machine.execVredImax td ta g s
  | .vredImin td ta g => Sys2Proof.Machine.execVredImin td ta g s
  | .vxfExp2 td ta ctl g => Sys2Proof.Machine.execVxfExp2 td ta ctl g s
  | .vxfLog2 td ta ctl g => Sys2Proof.Machine.execVxfLog2 td ta ctl g s
  | .vxfRcp td ta ctl g => Sys2Proof.Machine.execVxfRcp td ta ctl g s
  | .vxfRsqrt td ta ctl g => Sys2Proof.Machine.execVxfRsqrt td ta ctl g s
  | .vxfSin td ta ctl g => Sys2Proof.Machine.execVxfSin td ta ctl g s
  | .vxfCos td ta ctl g => Sys2Proof.Machine.execVxfCos td ta ctl g s
  | .vcvtRne td ta ctl g => Sys2Proof.Machine.execVcvtRne td ta ctl g s
  | .vcvtRtz td ta ctl g => Sys2Proof.Machine.execVcvtRtz td ta ctl g s
  | .vcvtRdn td ta ctl g => Sys2Proof.Machine.execVcvtRdn td ta ctl g s
  | .vcvtRup td ta ctl g => Sys2Proof.Machine.execVcvtRup td ta ctl g s
  | .vcvtSrk td ta ctl g => Sys2Proof.Machine.execVcvtSrk td ta ctl g s
  | .vselSel td ta tb g => Sys2Proof.Machine.execVselSel td ta tb g s
  | .vselGath td ta tb g => Sys2Proof.Machine.execVselGath td ta tb g s
  | .vselRgath td ta tb g => Sys2Proof.Machine.execVselRgath td ta tb g s
  | .vselCmpr td ta tb g => Sys2Proof.Machine.execVselCmpr td ta tb g s
  | .vpermTr td ta g => Sys2Proof.Machine.execVpermTr td ta g s
  | .vpermRev td ta g => Sys2Proof.Machine.execVpermRev td ta g s
  | .vpermZip td ta g => Sys2Proof.Machine.execVpermZip td ta g s
  | .vpermUnzip td ta g => Sys2Proof.Machine.execVpermUnzip td ta g s
  | .lpostCp td ctl g => Sys2Proof.Machine.execLpostCp td ctl g s
  | .lpostPkt td ctl g => Sys2Proof.Machine.execLpostPkt td ctl g s
  | .lshapeElem td ta ctl g => Sys2Proof.Machine.execLshapeElem td ta ctl g s
  | .lshapeScale td ta ctl g => Sys2Proof.Machine.execLshapeScale td ta ctl g s
  | .lqctlBind d a => Sys2Proof.Machine.execLqctlBind d a s
  | .lqctlRing d a => Sys2Proof.Machine.execLqctlRing d a s
  | .lqctlStat d a => Sys2Proof.Machine.execLqctlStat d a s
  | .lqctlUnbind d a => Sys2Proof.Machine.execLqctlUnbind d a s
  | .kplan td ta ctl g => Sys2Proof.Machine.execKplan td ta ctl g s
  | .kplayCp td ctl g => Sys2Proof.Machine.execKplayCp td ctl g s
  | .kplayFlag td ctl g => Sys2Proof.Machine.execKplayFlag td ctl g s
  | .kcommBind td ta g => Sys2Proof.Machine.execKcommBind td ta g s
  | .kcommFree td ctl g => Sys2Proof.Machine.execKcommFree td ctl g s
  | .kabrt d a => Sys2Proof.Machine.execKabrt d a s
  | .qpostLd td ta tb g => Sys2Proof.Machine.execQpostLd td ta tb g s
  | .qpostFlag td ta tb g => Sys2Proof.Machine.execQpostFlag td ta tb g s
  | .qapndPut td ta g => Sys2Proof.Machine.execQapndPut td ta g s
  | .qapndAdv td ta g => Sys2Proof.Machine.execQapndAdv td ta g s
  | .qapndClr td g => Sys2Proof.Machine.execQapndClr td g s
  | .qstatRows d a => Sys2Proof.Machine.execQstatRows d a s
  | .qstatUnit d a => Sys2Proof.Machine.execQstatUnit d a s
  | .csrRd d csr => Sys2Proof.Machine.execCsrRd d csr s
  | .csrWr d csr => Sys2Proof.Machine.execCsrWr d csr s
  | .csrSet d csr => Sys2Proof.Machine.execCsrSet d csr s
  | .csrClr d csr => Sys2Proof.Machine.execCsrClr d csr s
  | .csrSwp d csr => Sys2Proof.Machine.execCsrSwp d csr s
  | .sysCommit d => Sys2Proof.Machine.execSysCommit d s
  | .sysEret => Sys2Proof.Machine.execSysEret s
  | .sysCkpt d => Sys2Proof.Machine.execSysCkpt d s
  | .tlbiRange d a v => Sys2Proof.Machine.execTlbiRange d a v s
  | .tlbiAsid d v => Sys2Proof.Machine.execTlbiAsid d v s
  | .tlbiAll d => Sys2Proof.Machine.execTlbiAll d s
  | .ctxEvict d a v => Sys2Proof.Machine.execCtxEvict d a v s
  | .ctxRestore d a v => Sys2Proof.Machine.execCtxRestore d a v s
  | .ctxResume d a v => Sys2Proof.Machine.execCtxResume d a v s
  | .ctxDestroy d a v => Sys2Proof.Machine.execCtxDestroy d a v s
  | .ctxPreempt d a => Sys2Proof.Machine.execCtxPreempt d a s
  | .ctxFreeze d a => Sys2Proof.Machine.execCtxFreeze d a s
  | .zadd x y => Sys2Proof.Machine.execZadd x y s
  | .zsub x y => Sys2Proof.Machine.execZsub x y s
  | .zand x y => Sys2Proof.Machine.execZand x y s
  | .zor x y => Sys2Proof.Machine.execZor x y s
  | .zxor x y => Sys2Proof.Machine.execZxor x y s
  | .zmul x y => Sys2Proof.Machine.execZmul x y s
  | .zdiv x y => Sys2Proof.Machine.execZdiv x y s
  | .zmin x y => Sys2Proof.Machine.execZmin x y s
  | .zmax x y => Sys2Proof.Machine.execZmax x y s
  | .zshl x y => Sys2Proof.Machine.execZshl x y s
  | .zshr x y => Sys2Proof.Machine.execZshr x y s
  | .zsar x y => Sys2Proof.Machine.execZsar x y s
  | .zmov x y => Sys2Proof.Machine.execZmov x y s
  | .zneg x y => Sys2Proof.Machine.execZneg x y s
  | .zaddi x imm => Sys2Proof.Machine.execZaddi x imm s
  | .zli x imm => Sys2Proof.Machine.execZli x imm s
  | .zld x y off => Sys2Proof.Machine.execZld x y off s
  | .zst x y off => Sys2Proof.Machine.execZst x y off s
  | .zldw x y off => Sys2Proof.Machine.execZldw x y off s
  | .zstw x y off => Sys2Proof.Machine.execZstw x y off s
  | .zldb x y off => Sys2Proof.Machine.execZldb x y off s
  | .zstb x y off => Sys2Proof.Machine.execZstb x y off s
  | .zj imm => Sys2Proof.Machine.execZj imm s
  | .zret => Sys2Proof.Machine.execZret s
  | .retryDelay core slot => Sys2Proof.Machine.execRetryDelay core slot s
  | .delivery n => Sys2Proof.Machine.execDelivery n s
  | .retry n => Sys2Proof.Machine.execRetry n s
  | .dispatch core => Sys2Proof.Machine.execDispatch core s
  | .preEmpted core => Sys2Proof.Machine.execPreEmpted core s
  | .ageing core slot => Sys2Proof.Machine.execAgeing core slot s
  | .waitEnd core slot => Sys2Proof.Machine.execWaitEnd core slot s
  | .childPlacement die n => Sys2Proof.Machine.execChildPlacement die n s
  | .loadReference die q => Sys2Proof.Machine.execLoadReference die q s
  | .unload die q => Sys2Proof.Machine.execUnload die q s
  | .objectFreed n => Sys2Proof.Machine.execObjectFreed n s
  | .quiesced n => Sys2Proof.Machine.execQuiesced n s
  | .evictComplete n => Sys2Proof.Machine.execEvictComplete n s
  | .inFlightDrain n => Sys2Proof.Machine.execInFlightDrain n s
  | .tlbiDrained n => Sys2Proof.Machine.execTlbiDrained n s
  | .mxuInboxPost n => Sys2Proof.Machine.execMxuInboxPost n s
  | .mxuCmdMma core => Sys2Proof.Machine.execMxuCmdMma core s
  | .mxuCmdMzero core => Sys2Proof.Machine.execMxuCmdMzero core s
  | .mxuCmdMcvt core => Sys2Proof.Machine.execMxuCmdMcvt core s
  | .mxuCmdMresc core => Sys2Proof.Machine.execMxuCmdMresc core s
  | .mxuCmdMstat core => Sys2Proof.Machine.execMxuCmdMstat core s
  | .mxuCmdManch core => Sys2Proof.Machine.execMxuCmdManch core s
  | .mxuCmdMbput core => Sys2Proof.Machine.execMxuCmdMbput core s
  | .mxuReply core => Sys2Proof.Machine.execMxuReply core s
  | .vectorInboxPost n => Sys2Proof.Machine.execVectorInboxPost n s
  | .vecCmdVmap core => Sys2Proof.Machine.execVecCmdVmap core s
  | .vecCmdVfma core => Sys2Proof.Machine.execVecCmdVfma core s
  | .vecCmdVcmp core => Sys2Proof.Machine.execVecCmdVcmp core s
  | .vecCmdVlog core => Sys2Proof.Machine.execVecCmdVlog core s
  | .vecCmdVshf core => Sys2Proof.Machine.execVecCmdVshf core s
  | .vecCmdVred core => Sys2Proof.Machine.execVecCmdVred core s
  | .vecCmdVxf core => Sys2Proof.Machine.execVecCmdVxf core s
  | .vecCmdVcvt core => Sys2Proof.Machine.execVecCmdVcvt core s
  | .vecCmdVsel core => Sys2Proof.Machine.execVecCmdVsel core s
  | .vecCmdVperm core => Sys2Proof.Machine.execVecCmdVperm core s
  | .vectorReply core => Sys2Proof.Machine.execVectorReply core s
  | .doorbell cluster q => Sys2Proof.Machine.execDoorbell cluster q s
  | .queuePoll cluster q => Sys2Proof.Machine.execQueuePoll cluster q s
  | .ladleCopy cluster chan => Sys2Proof.Machine.execLadleCopy cluster chan s
  | .ladleFill cluster chan => Sys2Proof.Machine.execLadleFill cluster chan s
  | .ladleRelayout cluster chan => Sys2Proof.Machine.execLadleRelayout cluster chan s
  | .ladleNop cluster chan => Sys2Proof.Machine.execLadleNop cluster chan s
  | .ladleLaunch cluster chan => Sys2Proof.Machine.execLadleLaunch cluster chan s
  | .ladleReply cluster chan => Sys2Proof.Machine.execLadleReply cluster chan s
  | .runnerInboxPost n => Sys2Proof.Machine.execRunnerInboxPost n s
  | .kcommBindCmd die => Sys2Proof.Machine.execKcommBindCmd die s
  | .kcommFreeCmd die comm => Sys2Proof.Machine.execKcommFreeCmd die comm s
  | .kplanCmd die comm => Sys2Proof.Machine.execKplanCmd die comm s
  | .play die comm => Sys2Proof.Machine.execPlay die comm s
  | .runnerSendOp die => Sys2Proof.Machine.execRunnerSendOp die s
  | .runnerRecvOp die => Sys2Proof.Machine.execRunnerRecvOp die s
  | .runnerMcastOp die => Sys2Proof.Machine.execRunnerMcastOp die s
  | .runnerWaitOp die => Sys2Proof.Machine.execRunnerWaitOp die s
  | .runnerAlignOp die => Sys2Proof.Machine.execRunnerAlignOp die s
  | .chunkArrival n => Sys2Proof.Machine.execChunkArrival n s
  | .sendAccepted n => Sys2Proof.Machine.execSendAccepted n s
  | .creditReturn n => Sys2Proof.Machine.execCreditReturn n s
  | .buddyTimeout die comm op => Sys2Proof.Machine.execBuddyTimeout die comm op s
  | .runnerSilent die comm op => Sys2Proof.Machine.execRunnerSilent die comm op s
  | .abortToken n => Sys2Proof.Machine.execAbortToken n s
  | .request n => Sys2Proof.Machine.execRequest n s
  | .alertEnd stack n => Sys2Proof.Machine.execAlertEnd stack n s
  | .reply n => Sys2Proof.Machine.execReply n s
  | .scratchpadAccess n => Sys2Proof.Machine.execScratchpadAccess n s
  | .scrub stack word => Sys2Proof.Machine.execScrub stack word s
  | .refresh stack bank => Sys2Proof.Machine.execRefresh stack bank s
  | .laneRepair stack chan => Sys2Proof.Machine.execLaneRepair stack chan s
  | .repairComplete stack n => Sys2Proof.Machine.execRepairComplete stack n s
  | .repairTimeout stack n => Sys2Proof.Machine.execRepairTimeout stack n s
  | .rebuildComplete stack chan => Sys2Proof.Machine.execRebuildComplete stack chan s
  | .reckonerQuery n => Sys2Proof.Machine.execReckonerQuery n s
  | .record set bank => Sys2Proof.Machine.execRecord set bank s
  | .qapndPutCmd n => Sys2Proof.Machine.execQapndPutCmd n s
  | .qapndAdvCmd n => Sys2Proof.Machine.execQapndAdvCmd n s
  | .qapndClrCmd n => Sys2Proof.Machine.execQapndClrCmd n s
  | .launchQueueRecord die q => Sys2Proof.Machine.execLaunchQueueRecord die q s
  | .coalescingWindow page => Sys2Proof.Machine.execCoalescingWindow page s
  | .frameDrop f => Sys2Proof.Machine.execFrameDrop f s
  | .frameLaunch f => Sys2Proof.Machine.execFrameLaunch f s
  | .frameCopy f => Sys2Proof.Machine.execFrameCopy f s
  | .frameDefault f => Sys2Proof.Machine.execFrameDefault f s
  | .crcReplay link => Sys2Proof.Machine.execCrcReplay link s
  | .linkDown node down => Sys2Proof.Machine.execLinkDown node down s
  | .nodeUnreachable node => Sys2Proof.Machine.execNodeUnreachable node s
  | .moduleReset b => Sys2Proof.Machine.execModuleReset b s
  | .attestationReport nonce => Sys2Proof.Machine.execAttestationReport nonce s
  | .clockChange mhz therm pwr => Sys2Proof.Machine.execClockChange mhz therm pwr s
  | .registerWrite place size value => Sys2Proof.Machine.execRegisterWrite place size value s
  | .unassignedEncoding raw cause => Sys2Proof.Machine.execUnassignedEncoding raw cause s
  | .buddyCopyRequest n => Sys2Proof.Machine.execBuddyCopyRequest n s
  | .badFcsFrame port => Sys2Proof.Machine.execBadFcsFrame port s
  | .priorityFlowControlFrame port enable pause => Sys2Proof.Machine.execPriorityFlowControlFrame port enable pause s

end Sys2Proof.Machine
end

