-- ==== Sys2Proof/Machine/Schedule.lean ====
section
/-! DEFINITION. Which agents can move next, and the choice among them (R12, R181, R182, log 3). An event is
due when its meaning changes the state. -/

namespace Sys2Proof.Machine

/-- The cores whose running activation takes the next instruction: one that must yield does not (R181). -/
def State.runningCores (s : State) : List Nat :=
  (s.cores.filter fun e => e.2.running.isSome && (s.yields e.1).isNone).map Prod.fst

/-- The cores that hold anything. -/
def State.usedCores (s : State) : List Nat :=
  (s.cores.map Prod.fst ++ s.slots.map fun e => keyCore e.1).eraseDups

/-- Numbers of the elements of a list, each made an event. -/
def eventsOf {α : Type} (l : List α) (f : Nat → List Instr) : List Instr := (List.range l.length).flatMap f

/-- Events that a core and its engines may have. -/
noncomputable def coreEvents (c : Nat) : List Instr :=
  [.dispatch c, .preEmpted c, .mxuCmdMma c, .mxuCmdMzero c, .mxuCmdMcvt c, .mxuCmdMresc c, .mxuCmdMstat c,
   .mxuCmdManch c, .mxuCmdMbput c, .mxuReply c, .vecCmdVmap c, .vecCmdVfma c, .vecCmdVcmp c, .vecCmdVlog c,
   .vecCmdVshf c, .vecCmdVred c, .vecCmdVxf c, .vecCmdVcvt c, .vecCmdVsel c, .vecCmdVperm c, .vectorReply c]

/-- Events that a slot may have. -/
noncomputable def slotEvents (k : Nat) : List Instr :=
  let c := keyCore k
  let n := (keySlot k).val
  [.waitEnd c n, .retryDelay c n, .ageing c n]

/-- Events of the traffic on its way. -/
noncomputable def Net.events (q : Net) : List Instr :=
  eventsOf q.flights (fun n => [.delivery n, .retry n]) ++
  eventsOf q.posts (fun n =>
    [.mxuInboxPost n, .vectorInboxPost n, .runnerInboxPost n, .retry (q.flights.length + n)]) ++
  eventsOf q.reqs (fun n => [.request n, .scratchpadAccess n]) ++
  eventsOf q.answers (fun n => [.reply n]) ++
  eventsOf q.chunks (fun n => [.chunkArrival n]) ++
  eventsOf q.acks (fun n => [.sendAccepted n]) ++
  eventsOf q.credits (fun n => [.creditReturn n]) ++
  eventsOf q.asks (fun n => [.buddyCopyRequest n]) ++
  eventsOf q.tokens (fun n => [.abortToken n]) ++
  eventsOf q.sups fun n => [.evictComplete n, .inFlightDrain n, .tlbiDrained n]

/-- Events of a cluster's Ladle: its channels and the queues bound to it. -/
noncomputable def Cluster.events (u : Cluster) (cl : Nat) : List Instr :=
  (List.range 4).flatMap (fun ch =>
    [.ladleCopy cl ch, .ladleFill cl ch, .ladleRelayout cl ch, .ladleNop cl ch, .ladleLaunch cl ch, .ladleReply cl ch]) ++
  ((List.range 64).filter fun q => u.queues[ix 64 q].bound).map fun q => .queuePoll cl q

/-- Events of a die: its launch scheduler and queues, and its Runner. -/
noncomputable def Die.events (u : Die) (d : Nat) : List Instr :=
  eventsOf u.launches (fun n => [.childPlacement d n]) ++
  (List.range 16).flatMap (fun q => [.launchQueueRecord d q, .loadReference d q, .unload d q]) ++
  [.kcommBindCmd d, .runnerSendOp d, .runnerRecvOp d, .runnerMcastOp d, .runnerWaitOp d, .runnerAlignOp d] ++
  (List.range 4).flatMap fun c =>
    [.kcommFreeCmd d c, .kplanCmd d c, .play d c] ++
    match (u.comms[ix 4 c]).play with
    | none => []
    | some p => eventsOf p.ops fun i => [.buddyTimeout d c i, .runnerSilent d c i]

/-- Events of a stack; the word to scrub and the bank to refresh are free (log 24). -/
noncomputable def Stack.events (t : Stack) (st tick : Nat) : List Instr :=
  [.scrub st (Config.scrubbed tick), .refresh st (Config.refreshed tick)] ++
  eventsOf t.holds (fun n => [.repairComplete st n, .repairTimeout st n, .alertEnd st n]) ++
  ((List.range 32).filter fun ch => bit t.rebuild ch).map (fun ch => .rebuildComplete st ch) ++
  t.queues.flatMap fun q =>
    let set := st * 32 + q.1
    (List.range q.2.length).flatMap (fun i =>
      [.reckonerQuery (set * 8 + i), .qapndPutCmd (set * 8 + i), .qapndAdvCmd (set * 8 + i), .qapndClrCmd (set * 8 + i)]) ++
    if q.2.any Query.taken then (List.range 32).map fun b => .record set b else []

/-- Every event that something of the state may have. -/
noncomputable def State.candidates (s : State) : List Instr :=
  s.usedCores.flatMap coreEvents ++ s.slots.flatMap (fun e => slotEvents e.1) ++ s.net.events ++
  (List.range 16).flatMap (fun cl => (s.cluster cl).events cl) ++
  (List.range 4).flatMap (fun d => (s.die d).events d) ++
  (List.range 8).flatMap (fun st => (s.stack st).events st s.tick) ++
  eventsOf s.module.detect (fun n => [.quiesced n]) ++
  eventsOf s.module.unloads (fun n => [.objectFreed n]) ++
  s.sdie.msiDue.map (fun e => .coalescingWindow e.1) ++
  s.module.down.map fun e => .nodeUnreachable e.1

/-- Whether an event changes the state. -/
def State.due (s : State) (e : Instr) : Bool :=
  match exec e s with
  | .next t => decide (t ≠ s)
  | _ => false

/-- The agents that can move: running cores, and events that are due. A module that a boot stage stopped does
nothing (R393). -/
noncomputable def State.movers (s : State) : List Mover :=
  if s.sdie.bootstat ≠ 0 then []
  else s.runningCores.map .core ++ (s.candidates.filter s.due).map .event

/-- Whether an event is a module reset. -/
def isReset : Instr → Bool
  | .moduleReset _ => true
  | _ => false

/-- The outside events that can still act: a module that a boot stage stopped takes a reset alone (R393). -/
def State.waiting (s : State) : List Instr :=
  if s.sdie.bootstat = 0 then s.inputs else s.inputs.filter isReset

/-- The next mover and the outside events that still wait: a free choice among the agents that can move and the
oldest outside event. -/
noncomputable def State.pick (s : State) : Mover × List Instr :=
  let l := s.movers
  let n := l.length + (if s.waiting = [] then 0 else 1)
  match l[Config.choice s.tick % n]?, s.waiting with
  | some m, es => (m, es)
  | none, e :: es => (.event e, es)
  | none, [] => (.idle, [])

/-- The end of a step: an error may befall a stack (R358), rows raise their alerts (R367), time passes by a free amount
and the next mover is chosen. Before time passes, every idle Runner commits itself to its next op (R347). -/
noncomputable def State.advance (s : State) : State :=
  let s := s.upset.raiseAlerts
  let s := if Config.elapsedCycles s.tick = 0 ∧ Config.elapsedNs s.tick = 0 then s else s.chooseOps
  let s := { s with stuck := none, tick := s.tick + 1, cycle := s.cycle + Config.elapsedCycles s.tick,
                    ns := s.ns + Config.elapsedNs s.tick }
  { s with mover := s.pick.1, inputs := s.pick.2 }

end Sys2Proof.Machine
end

