-- ==== Sys2Proof/Machine/Step.lean ====
section
/-! DEFINITION. One step of the machine: the agent that moves takes its step, then time passes and the
next agent is chosen. -/

namespace Sys2Proof.Machine

/-- One step of the running activation of slot `k`: fetch, decode, execute (R51, R52, R64, R65). -/
noncomputable def State.stepCore (s : State) (k : Nat) : Host.Outcome State Fault Refusal :=
  match s.fetch k with
  | .fault cause addr => .next (s.fetchFault k cause addr)
  | .bytes s raw bs =>
    let s := s.fetched k raw
    match decodeBytes bs with
    | .ok (i, _) => exec i s
    | .error e => exec (.unassignedEncoding raw e.cause) s

/-- An outside event that waits for an access has done nothing yet: it waits on (R362, R399). -/
def State.orKeep (s : State) (e : Instr) : Host.Outcome State Fault Refusal → Host.Outcome State Fault Refusal
  | .next t => .next (if t = s ∧ s.mayWait then { s with inputs := e :: s.inputs } else t)
  | o => o

/-- What the moving agent does. -/
noncomputable def State.act (s : State) : Host.Outcome State Fault Refusal :=
  match s.mover with
  | .core _ =>
    match s.cur with
    | some k => s.stepCore k
    | none => .next s
  | .event e => s.orKeep e (exec e s)
  | .idle => .next s

/-- The state after what a step has done: time passes and the next mover is chosen. -/
noncomputable def advanced : Host.Outcome State Fault Refusal → Host.Outcome State Fault Refusal
  | .next s => .next s.advance
  | .fault f => .fault f
  | .refused r => .refused r

/-- One step of the module. -/
noncomputable def step (s : State) : Host.Outcome State Fault Refusal := advanced s.act

/-- The state with an instruction stored where the next step fetches: see `State.loaded`. -/
def State.withFetchWord (s : State) (nbits w : Nat) : State := s.loaded (bytesLE (w % 2 ^ nbits) 4)

end Sys2Proof.Machine
end

