-- ==== Sys2Proof/Safety.lean ====
section
/-! DEFINITION. What counts as a safe run: no step of it stops, and memory keeps its canonical form. -/

namespace Sys2Proof

/-- Whether a step answers a next state. -/
def Completes (o : Host.Outcome Machine.State Machine.Fault Machine.Refusal) : Prop :=
  ∃ t, o = .next t

/-- Whether the machine runs `n` steps from `s` without a fault or a refusal. -/
def Safe : Nat → Machine.State → Prop
  | 0, _ => True
  | n + 1, s => ∃ t, Machine.step s = .next t ∧ Safe n t

/-- Memory in its canonical form (log 2). -/
def MemoryWf (s : Machine.State) : Prop := Machine.Memory.wf s.mem = true

end Sys2Proof
end

