-- ==== Sys2Proof/Certificates/Slice0/Obligations.lean ====
section
/-! DEFINITION. The statements about the model, each `def Obligations.<Name> : Prop`, and the words they use. -/

namespace Sys2Proof.Claims
open Sys2Proof.Machine

/-- An instruction of the running activation of slot `k` has its own effect: the slot runs, the features are
there (R102), the guard reads true (R58), and the charge keeps within the budget (R184). `stuck` is the model's own
field, free between steps (`Obligations.EveryStepKeepsMemoryCanonical`). -/
structure Ready (s : State) (k : Nat) (feats : List Nat) (g : PredNo) (cost : Nat) : Prop where
  runs   : s.cur = some k
  feats  : ∀ f ∈ feats, s.hasFeat f = true
  guard  : (s.slot k).pred g = true
  budget : (s.slot k).budget = 0 ∨ (s.slot k).used.toNat + cost ≤ (s.slot k).budget.toNat
  free   : s.stuck = none

/-- No posted store of the source of slot `k` is held at its controller: a release waits for nothing (R362, R399). -/
def Unheld (s : State) (k : Nat) : Prop := s.heldStore (keyCore k) (s.slot k).ctxid = false

/-- A slot after `cost` cycles have been charged (R105). -/
def charged (cost : Nat) (sl : Slot) : Slot :=
  { sl with used := sl.used + BitVec.ofNat 32 cost, ran := sl.ran + cost }

/-- A slot after an instruction of `len` bytes that charges `cost` cycles and goes on. -/
def passed (len cost : Nat) (sl : Slot) : Slot := { charged cost sl with pc := sl.pc + BitVec.ofNat 52 len }

/-- A slot after a taken branch to `target`. -/
def jumped (cost : Nat) (target : BitVec 52) (sl : Slot) : Slot := { charged cost sl with pc := target }

/-- A slot after a value has been written through a D specifier (R55, R57): s0 and 126 name no register, and L
takes every value. -/
def wrote (d : Dst) (v : Word) (sl : Slot) : Slot :=
  match d with
  | .s n => { sl with s := if n = 0 then sl.s else sl.s.set n.toNat v n.isLt, l := v }
  | .q n => { sl with q := sl.q.set n.toNat v n.isLt, l := v }
  | .last => { sl with l := v }

/-- The state after the running activation has written a value through D and gone on: nothing else of the
state changes. -/
def gave (s : State) (k len cost : Nat) (d : Dst) (v : Word) : State :=
  s.setSlot k (passed len cost (wrote d v (s.slot k)))

/-- The state after a predicate write (R59): one to p0 is discarded, L is left alone. -/
def tested (s : State) (k : Nat) (p : PredNo) (v : Bool) : State :=
  s.setSlot k (passed 4 1
    { s.slot k with p := if p = 0 then (s.slot k).p else (s.slot k).p.set p.toNat v p.isLt })

end Sys2Proof.Claims

open Sys2Proof Sys2Proof.Machine Sys2Proof.Claims

/-! ### Operands -/

/-- R55, R56, R58: s0 reads zero, index and coefficient registers read sign-extended, L and the other files read
what they hold, and p0 reads true. -/
def Obligations.OperandsReadTheirRegisters : Prop :=
  ∀ (sl : Slot),
    sl.read (.s 0) = 0 ∧ (∀ n : BitVec 6, n ≠ 0 → sl.read (.s n) = sl.s[n.toNat]'n.isLt) ∧
    (∀ n : BitVec 3, sl.read (.q n) = sl.q[n.toNat]'n.isLt) ∧ (∀ n : Fin 6, sl.read (.a n) = sl.a[n]) ∧
    (∀ n : BitVec 2, (sl.read (.i n)).toInt = (sl.i[n.toNat]'n.isLt).toInt) ∧
    (∀ n : BitVec 4, (sl.read (.c n)).toInt = (sl.c[n.toNat]'n.isLt).toInt) ∧ sl.read .last = sl.l ∧
    sl.pred 0 = true ∧ ∀ p : PredNo, p ≠ 0 → sl.pred p = sl.p[p.toNat]'p.isLt

/-! ### Scalar arithmetic -/

/-- R107: the value that each of the twelve register-register majors writes through D, its charge, and the PC;
nothing else of the state changes. -/
def Obligations.ArithmeticWritesItsResult : Prop :=
  ∀ (s : State) (k : Nat) (d : Dst) (a b : Src) (g : PredNo),
    let x := (s.slot k).read a
    let y := (s.slot k).read b
    let n := y.toNat % 64
    (Ready s k [0] g 1 →
      exec (.add d a b g) s = .next (gave s k 4 1 d (BitVec.ofNat 64 (x.toNat + y.toNat))) ∧
      exec (.sub d a b g) s = .next (gave s k 4 1 d (BitVec.ofInt 64 ((x.toNat : Int) - y.toNat))) ∧
      exec (.and d a b g) s = .next (gave s k 4 1 d (x &&& y)) ∧
      exec (.or d a b g) s = .next (gave s k 4 1 d (x ||| y)) ∧
      exec (.xor d a b g) s = .next (gave s k 4 1 d (x ^^^ y)) ∧
      exec (.shl d a b g) s = .next (gave s k 4 1 d (BitVec.ofNat 64 (x.toNat * 2 ^ n))) ∧
      exec (.shr d a b g) s = .next (gave s k 4 1 d (BitVec.ofNat 64 (x.toNat / 2 ^ n))) ∧
      exec (.sar d a b g) s = .next (gave s k 4 1 d (BitVec.ofInt 64 (x.toInt / 2 ^ n))) ∧
      exec (.min d a b g) s = .next (gave s k 4 1 d (if x.toInt ≤ y.toInt then x else y)) ∧
      exec (.max d a b g) s = .next (gave s k 4 1 d (if x.toInt ≤ y.toInt then y else x))) ∧
    (Ready s k [0] g 3 →
      exec (.mul d a b g) s = .next (gave s k 4 3 d (BitVec.ofNat 64 (x.toNat * y.toNat))) ∧
      exec (.mulh d a b g) s = .next (gave s k 4 3 d (BitVec.ofInt 64 (x.toInt * y.toInt / 2 ^ 64))))

/-- R108: division truncates toward zero, and a zero divisor gives all ones and the dividend. -/
def Obligations.DivisionDefinesEveryPair : Prop :=
  ∀ (s : State) (k : Nat) (d : Dst) (a b : Src) (g : PredNo), Ready s k [0] g 20 →
    let x := (s.slot k).read a
    let y := (s.slot k).read b
    let quo := x.toInt.tdiv y.toInt
    exec (.div d a b g) s = .next (gave s k 4 20 d
      (if y = 0 then 0xFFFFFFFFFFFFFFFF#64 else BitVec.ofInt 64 quo)) ∧
    exec (.rem d a b g) s = .next (gave s k 4 20 d
      (if y = 0 then x else BitVec.ofInt 64 (x.toInt - y.toInt * quo)))

/-- R109, R110: SEL selects by its predicate and is never suppressed; FSH shifts D and A together right. -/
def Obligations.SelectAndFunnelShift : Prop :=
  ∀ (s : State) (k : Nat) (d : Dst) (a b : Src) (p : PredNo),
    let x := (s.slot k).read a
    let y := (s.slot k).read b
    (Ready s k [0] 0 1 →
      exec (.sel d a b p) s = .next (gave s k 4 1 d (if (s.slot k).pred p then x else y))) ∧
    (Ready s k [0] p 1 →
      exec (.fsh d a b p) s = .next (gave s k 4 1 d
        (BitVec.ofNat 64 ((((s.slot k).read (dstSrc d)).toNat * 2 ^ 64 + x.toNat) / 2 ^ (y.toNat % 64)))))

/-- R111, R119, R120: each of the sixteen comparisons and of the sixteen functions of PLOG writes its truth to PD, and CSET
writes the predicates that its mask names; p0 stays true, and every register and L is left alone. -/
def Obligations.PredicatesTakeTheirTruth : Prop :=
  ∀ (s : State) (k : Nat) (pd pa pb g : PredNo) (a b : Src),
    let x := (s.slot k).read a
    let y := (s.slot k).read b
    let p := (s.slot k).pred pa
    let q := (s.slot k).pred pb
    (Ready s k [0] g 1 →
      exec (.cmpEq pd a b g) s = .next (tested s k pd (x = y)) ∧
      exec (.cmpNe pd a b g) s = .next (tested s k pd (x ≠ y)) ∧
      exec (.cmpLt pd a b g) s = .next (tested s k pd (x.toInt < y.toInt)) ∧
      exec (.cmpGe pd a b g) s = .next (tested s k pd (y.toInt ≤ x.toInt)) ∧
      exec (.cmpLe pd a b g) s = .next (tested s k pd (x.toInt ≤ y.toInt)) ∧
      exec (.cmpGt pd a b g) s = .next (tested s k pd (y.toInt < x.toInt)) ∧
      exec (.cmpLtn pd a b g) s = .next (tested s k pd (x.toNat < y.toNat)) ∧
      exec (.cmpGen pd a b g) s = .next (tested s k pd (y.toNat ≤ x.toNat)) ∧
      exec (.cmpLen pd a b g) s = .next (tested s k pd (x.toNat ≤ y.toNat)) ∧
      exec (.cmpGtn pd a b g) s = .next (tested s k pd (y.toNat < x.toNat)) ∧
      exec (.cmpAny pd a b g) s = .next (tested s k pd (x &&& y ≠ 0)) ∧
      exec (.cmpNone pd a b g) s = .next (tested s k pd (x &&& y = 0)) ∧
      exec (.cmpAll pd a b g) s = .next (tested s k pd (x &&& y = y)) ∧
      exec (.cmpNall pd a b g) s = .next (tested s k pd (x &&& y ≠ y)) ∧
      exec (.cmpBit pd a b g) s = .next (tested s k pd (x.getLsbD (y.toNat % 64))) ∧
      exec (.cmpNbit pd a b g) s = .next (tested s k pd (!x.getLsbD (y.toNat % 64))) ∧
      exec (.plogClr pd pa pb g) s = .next (tested s k pd false) ∧
      exec (.plogNor pd pa pb g) s = .next (tested s k pd (!(p || q))) ∧
      exec (.plogAndna pd pa pb g) s = .next (tested s k pd (!p && q)) ∧
      exec (.plogNota pd pa pb g) s = .next (tested s k pd (!p)) ∧
      exec (.plogAndnb pd pa pb g) s = .next (tested s k pd (p && !q)) ∧
      exec (.plogNotb pd pa pb g) s = .next (tested s k pd (!q)) ∧
      exec (.plogXor pd pa pb g) s = .next (tested s k pd (p ^^ q)) ∧
      exec (.plogNand pd pa pb g) s = .next (tested s k pd (!(p && q))) ∧
      exec (.plogAnd pd pa pb g) s = .next (tested s k pd (p && q)) ∧
      exec (.plogXnor pd pa pb g) s = .next (tested s k pd (!(p ^^ q))) ∧
      exec (.plogMovb pd pa pb g) s = .next (tested s k pd q) ∧
      exec (.plogOrna pd pa pb g) s = .next (tested s k pd (!p || q)) ∧
      exec (.plogMova pd pa pb g) s = .next (tested s k pd p) ∧
      exec (.plogOrnb pd pa pb g) s = .next (tested s k pd (p || !q)) ∧
      exec (.plogOr pd pa pb g) s = .next (tested s k pd (p || q)) ∧
      exec (.plogSet pd pa pb g) s = .next (tested s k pd true)) ∧
    ∀ mask : BitVec 8, Ready s k [0] 0 1 →
      exec (.cset a mask) s = .next (s.setSlot k (passed 4 1 { s.slot k with
        p := Vector.ofFn fun j : Fin 8 => if j.val ≠ 0 ∧ mask.getLsbD j then x.getLsbD j else (s.slot k).p[j] }))

/-- R112 to R115: the immediate forms. -/
def Obligations.ImmediateFormsWriteTheirResult : Prop :=
  ∀ (s : State) (k : Nat) (d : Dst) (a v : Src) (imm : BitVec 10) (m : BitVec 7) (n : BitVec 6) (w : BitVec 17),
    Ready s k [0] 0 1 →
    let x := (s.slot k).read a
    let y := (s.slot k).read v
    exec (.addi d a imm) s = .next (gave s k 4 1 d (BitVec.ofInt 64 ((x.toNat : Int) + imm.toInt))) ∧
    exec (.logiAnd d a m) s = .next (gave s k 4 1 d (x &&& BitVec.ofInt 64 m.toInt)) ∧
    exec (.logiOr d a m) s = .next (gave s k 4 1 d (x ||| BitVec.ofInt 64 m.toInt)) ∧
    exec (.logiXor d a m) s = .next (gave s k 4 1 d (x ^^^ BitVec.ofInt 64 m.toInt)) ∧
    exec (.logiAndn d a v) s = .next (gave s k 4 1 d (x &&& ~~~y)) ∧
    exec (.logiOrn d a v) s = .next (gave s k 4 1 d (x ||| ~~~y)) ∧
    exec (.logiXnor d a v) s = .next (gave s k 4 1 d (~~~(x ^^^ y))) ∧
    exec (.shiShl d a n) s = .next (gave s k 4 1 d (BitVec.ofNat 64 (x.toNat * 2 ^ n.toNat))) ∧
    exec (.shiShr d a n) s = .next (gave s k 4 1 d (BitVec.ofNat 64 (x.toNat / 2 ^ n.toNat))) ∧
    exec (.shiSar d a n) s = .next (gave s k 4 1 d (BitVec.ofInt 64 (x.toInt / 2 ^ n.toNat))) ∧
    exec (.shiRol d a n) s = .next (gave s k 4 1 d ((x <<< n.toNat) ||| (x >>> (64 - n.toNat)))) ∧
    exec (.shiRor d a n) s = .next (gave s k 4 1 d ((x >>> n.toNat) ||| (x <<< (64 - n.toNat)))) ∧
    exec (.lim d w) s = .next (gave s k 4 1 d
      (BitVec.ofNat 64 (((s.slot k).read (dstSrc d)).toNat * 2 ^ 17 ||| w.toNat)))

namespace Sys2Proof.Claims

/-- The field of `x` that BEXT extracts (R116). -/
def bextValue (x : Word) (pos w : Nat) (sign : Bool) : Word :=
  let t := x.toNat / 2 ^ pos % 2 ^ w
  if sign ∧ 2 ^ w ≤ 2 * t then BitVec.ofInt 64 ((t : Int) - 2 ^ w) else BitVec.ofNat 64 t

/-- `h` with the low `w` bits of `x` at position `pos` (R117). -/
def binsValue (h x : Word) (pos w : Nat) : Word :=
  let m := BitVec.ofNat 64 ((2 ^ w - 1) * 2 ^ pos)
  (h &&& ~~~m) ||| ((x <<< pos) &&& m)

/-- The width field of V, where 0 means 64 (R116, R117). -/
def widthOf (v : Word) : Nat := if v.toNat / 2 ^ 8 % 64 = 0 then 64 else v.toNat / 2 ^ 8 % 64

end Sys2Proof.Claims

/-- R116 to R118: the twelve bit-field forms, what the bit counts count, and where the reversals move each bit. -/
def Obligations.BitFieldsExtractAndInsert : Prop :=
  ∀ (s : State) (k : Nat) (d : Dst) (a v : Src), Ready s k [0] 0 1 →
    let x := (s.slot k).read a
    let y := (s.slot k).read v
    let h := (s.slot k).read (dstSrc d)
    let pos := y.toNat % 64
    let at64 (n : Nat) : State := gave s k 4 1 d (BitVec.ofNat 64 n)
    exec (.bextU d a v) s = .next (gave s k 4 1 d (bextValue x pos (widthOf y) false)) ∧
    exec (.bextS d a v) s = .next (gave s k 4 1 d (bextValue x pos (widthOf y) true)) ∧
    exec (.bextI8 d a v) s = .next (gave s k 4 1 d (bextValue x pos 8 true)) ∧
    exec (.bextN8 d a v) s = .next (gave s k 4 1 d (bextValue x pos 8 false)) ∧
    exec (.bextI16 d a v) s = .next (gave s k 4 1 d (bextValue x pos 16 true)) ∧
    exec (.bextN16 d a v) s = .next (gave s k 4 1 d (bextValue x pos 16 false)) ∧
    exec (.bextI32 d a v) s = .next (gave s k 4 1 d (bextValue x pos 32 true)) ∧
    exec (.bextN32 d a v) s = .next (gave s k 4 1 d (bextValue x pos 32 false)) ∧
    exec (.binsIns d a v) s = .next (gave s k 4 1 d (binsValue h x pos (widthOf y))) ∧
    exec (.binsB8 d a v) s = .next (gave s k 4 1 d (binsValue h x pos 8)) ∧
    exec (.binsB16 d a v) s = .next (gave s k 4 1 d (binsValue h x pos 16)) ∧
    exec (.binsB32 d a v) s = .next (gave s k 4 1 d (binsValue h x pos 32)) ∧
    exec (.bcntPop d a) s = .next (at64 ((List.range 64).map fun j => (x.getLsbD j).toNat).sum) ∧
    (∃ n ≤ 64, exec (.bcntClz d a) s = .next (at64 n) ∧ (∀ j < n, x.getMsbD j = false) ∧
      (n < 64 → x.getMsbD n = true)) ∧
    (∃ n ≤ 64, exec (.bcntCtz d a) s = .next (at64 n) ∧ (∀ j < n, x.getLsbD j = false) ∧
      (n < 64 → x.getLsbD n = true)) ∧
    (∃ n ≤ 64, exec (.bcntClo d a) s = .next (at64 n) ∧ (∀ j < n, x.getMsbD j = true) ∧
      (n < 64 → x.getMsbD n = false)) ∧
    (∃ n ≤ 64, exec (.bcntCto d a) s = .next (at64 n) ∧ (∀ j < n, x.getLsbD j = true) ∧
      (n < 64 → x.getLsbD n = false)) ∧
    (∃ v, exec (.bcntRev d a) s = .next (gave s k 4 1 d v) ∧ ∀ j < 64, v.getLsbD j = x.getLsbD (63 - j)) ∧
    (∃ v, exec (.bcntBsw d a) s = .next (gave s k 4 1 d v) ∧
      ∀ j < 64, v.getLsbD j = x.getLsbD (8 * (7 - j / 8) + j % 8))

/-! ### Control flow -/

namespace Sys2Proof.Claims

/-- PC + 2·sext(DISP), modulo 2^52 (R52). -/
def target {n : Nat} (pc : BitVec 52) (disp : BitVec n) : BitVec 52 := BitVec.ofInt 52 (pc.toNat + 2 * disp.toInt)

end Sys2Proof.Claims

/-- R122 to R124: where branches and jumps go, what they charge, and the links they leave. -/
def Obligations.BranchesAndJumpsReachTheirTargets : Prop :=
  ∀ (s : State) (k : Nat),
    let sl := s.slot k
    (∀ (p : PredNo) (disp : BitVec 20),
      (Ready s k [0] 0 2 → sl.pred p = true →
        exec (.brT p disp) s = .next (s.setSlot k (jumped 2 (target sl.pc disp) sl))) ∧
      (Ready s k [0] 0 2 → sl.pred p = false →
        exec (.brF p disp) s = .next (s.setSlot k (jumped 2 (target sl.pc disp) sl))) ∧
      (Ready s k [0] 0 1 → sl.pred p = false → exec (.brT p disp) s = .next (s.setSlot k (passed 4 1 sl))) ∧
      (Ready s k [0] 0 1 → sl.pred p = true → exec (.brF p disp) s = .next (s.setSlot k (passed 4 1 sl)))) ∧
    (Ready s k [0] 0 2 → ∀ disp : BitVec 24,
      exec (.j disp) s = .next (s.setSlot k (jumped 2 (target sl.pc disp) sl)) ∧
      exec (.jl disp) s = .next (s.setSlot k (jumped 2 (target sl.pc disp)
        { sl with s := sl.s.set 63 ((sl.pc + 4).setWidth 64) }))) ∧
    (Ready s k [0] 0 2 → ∀ (d : Dst) (a : Src) (imm : BitVec 10),
      exec (.jr d a imm) s = .next (s.setSlot k (jumped 2
        (BitVec.ofInt 52 (((sl.read a).toNat + 2 * imm.toInt) / 2 * 2)) (wrote d ((sl.pc + 4).setWidth 64) sl))))

namespace Sys2Proof.Claims

/-- Level `j` of a nest advances at LEND (R127). -/
def Advances (sl : Slot) (j : Fin 4) : Prop := sl.i[j].toInt + 1 < (sl.lb[j].toNat : Int)

/-- The term of coefficient `j` in an address (R100, R101). -/
def streamTerm (sl : Slot) (j : Nat) : Int :=
  if sl.lcmap.getLsbD (4 * j + 3) then
    (sl.c[ix 16 j]).toInt * (sl.i[ix 4 (sl.lcmap.toNat / 2 ^ (4 * j) % 4)]).toInt
  else 0

end Sys2Proof.Claims

/-- R126 to R128, R101: LSET sets a level, LEND advances the innermost level that can advance or falls through,
and ADR adds the four terms of its stream to its base. -/
def Obligations.LoopNestInstructions : Prop :=
  ∀ (s : State) (k : Nat),
    let sl := s.slot k
    (Ready s k [0, 2] 0 1 → ∀ (n : BitVec 2) (a : Src),
      exec (.lset n a) s = .next (s.setSlot k (passed 4 1 { sl with
        lb := sl.lb.set n.toNat ((sl.read a).setWidth 32) n.isLt, i := sl.i.set n.toNat 0 n.isLt }))) ∧
    (∀ (n : BitVec 2) (disp : BitVec 20) (j : Fin 4),
      Ready s k [0, 2] 0 2 → j.val ≤ n.toNat → (∀ m < j, ¬ Advances sl m) → Advances sl j →
      exec (.lend n disp) s = .next (s.setSlot k (jumped 2 (target sl.pc disp) { sl with
        i := Vector.ofFn fun m : Fin 4 => if m < j then 0 else if m = j then sl.i[m] + 1 else sl.i[m] }))) ∧
    (∀ (n : BitVec 2) (disp : BitVec 20), Ready s k [0, 2] 0 1 → (∀ m : Fin 4, m.val ≤ n.toNat → ¬ Advances sl m) →
      exec (.lend n disp) s = .next (s.setSlot k (passed 4 1 sl))) ∧
    (∀ (g : BitVec 2) (d : Dst) (a v : Src), Ready s k [0, 2] 0 1 →
      exec (.adr g d a v) s = .next (gave s k 4 1 d (BitVec.ofInt 64 ((sl.read a).toNat + (sl.read v).toNat +
        ((List.range 4).map fun j => streamTerm sl (4 * g.toNat + j)).sum))))

/-- R66 to R68: the 16-bit arithmetic forms have the effect of their expansions, with two bytes and feature
C16. -/
def Obligations.ShortFormsHaveTheirExpansions : Prop :=
  ∀ (s : State) (k : Nat) (x y : ZReg) (imm : BitVec 6),
    let sl := s.slot k
    let u := sl.read (zSrc x)
    let v := sl.read (zSrc y)
    let n := v.toNat % 64
    (Ready s k [1, 0] 0 1 →
      exec (.zadd x y) s = .next (gave s k 2 1 (zDst x) (BitVec.ofNat 64 (u.toNat + v.toNat))) ∧
      exec (.zsub x y) s = .next (gave s k 2 1 (zDst x) (BitVec.ofInt 64 ((u.toNat : Int) - v.toNat))) ∧
      exec (.zand x y) s = .next (gave s k 2 1 (zDst x) (u &&& v)) ∧
      exec (.zor x y) s = .next (gave s k 2 1 (zDst x) (u ||| v)) ∧
      exec (.zxor x y) s = .next (gave s k 2 1 (zDst x) (u ^^^ v)) ∧
      exec (.zmin x y) s = .next (gave s k 2 1 (zDst x) (if u.toInt ≤ v.toInt then u else v)) ∧
      exec (.zmax x y) s = .next (gave s k 2 1 (zDst x) (if u.toInt ≤ v.toInt then v else u)) ∧
      exec (.zshl x y) s = .next (gave s k 2 1 (zDst x) (BitVec.ofNat 64 (u.toNat * 2 ^ n))) ∧
      exec (.zshr x y) s = .next (gave s k 2 1 (zDst x) (BitVec.ofNat 64 (u.toNat / 2 ^ n))) ∧
      exec (.zsar x y) s = .next (gave s k 2 1 (zDst x) (BitVec.ofInt 64 (u.toInt / 2 ^ n))) ∧
      exec (.zmov x y) s = .next (gave s k 2 1 (zDst x) v) ∧
      exec (.zneg x y) s = .next (gave s k 2 1 (zDst x) (BitVec.ofInt 64 (-(v.toNat : Int)))) ∧
      exec (.zaddi x imm) s = .next (gave s k 2 1 (zDst x) (BitVec.ofInt 64 ((u.toNat : Int) + imm.toInt))) ∧
      exec (.zli x imm) s = .next (gave s k 2 1 (zDst x) (BitVec.ofInt 64 imm.toInt))) ∧
    (Ready s k [1, 0] 0 3 →
      exec (.zmul x y) s = .next (gave s k 2 3 (zDst x) (BitVec.ofNat 64 (u.toNat * v.toNat)))) ∧
    (Ready s k [1, 0] 0 20 →
      exec (.zdiv x y) s = .next (gave s k 2 20 (zDst x)
        (if v = 0 then 0xFFFFFFFFFFFFFFFF#64 else BitVec.ofInt 64 (u.toInt.tdiv v.toInt)))) ∧
    (Ready s k [1, 0] 0 2 → ∀ disp : BitVec 10,
      exec (.zj disp) s = .next (s.setSlot k (jumped 2 (target sl.pc disp) sl)))

/-! ### Guards, budget and retirement -/

namespace Sys2Proof.Claims

/-- The guard that an instruction names, where its format has one (R53, R58). SEL reads G as its selector (R59). -/
def guardOf : Instr → Option PredNo
  | .add _ _ _ g | .sub _ _ _ g | .mul _ _ _ g | .mulh _ _ _ g | .div _ _ _ g | .rem _ _ _ g | .and _ _ _ g
  | .or _ _ _ g | .xor _ _ _ g | .shl _ _ _ g | .shr _ _ _ g | .sar _ _ _ g | .min _ _ _ g | .max _ _ _ g
  | .fsh _ _ _ g | .hret g | .ld _ _ _ _ g | .ldn _ _ _ _ g | .st _ _ _ _ g | .ldh _ _ _ g | .sth _ _ _ g
  | .pwld _ _ _ _ _ g | .ldx _ _ _ _ _ g | .stx _ _ _ _ g
  | .cmpEq _ _ _ g | .cmpNe _ _ _ g | .cmpLt _ _ _ g | .cmpGe _ _ _ g | .cmpLe _ _ _ g | .cmpGt _ _ _ g
  | .cmpLtn _ _ _ g | .cmpGen _ _ _ g | .cmpLen _ _ _ g | .cmpGtn _ _ _ g | .cmpAny _ _ _ g | .cmpNone _ _ _ g
  | .cmpAll _ _ _ g | .cmpNall _ _ _ g | .cmpBit _ _ _ g | .cmpNbit _ _ _ g
  | .plogClr _ _ _ g | .plogNor _ _ _ g | .plogAndna _ _ _ g | .plogNota _ _ _ g | .plogAndnb _ _ _ g
  | .plogNotb _ _ _ g | .plogXor _ _ _ g | .plogNand _ _ _ g | .plogAnd _ _ _ g | .plogXnor _ _ _ g
  | .plogMovb _ _ _ g | .plogOrna _ _ _ g | .plogMova _ _ _ g | .plogOrnb _ _ _ g | .plogOr _ _ _ g
  | .plogSet _ _ _ g
  | .mma _ _ _ g | .mzeroZero _ g | .mzeroLoad _ _ g | .mzeroAdd _ _ g | .mzeroStat _ _ g | .mcvtRne _ _ _ g
  | .mcvtRtz _ _ _ g | .mcvtRdn _ _ _ g | .mcvtRup _ _ _ g | .mcvtSrk _ _ _ g | .mresc _ _ _ g | .mstatRd _ _ g
  | .mstatRdclr _ _ g | .manch _ g | .mbput _ _ g | .mpost _ g
  | .vmapAdd _ _ _ _ g | .vmapSub _ _ _ _ g | .vmapMul _ _ _ _ g | .vmapMin _ _ _ _ g | .vmapMax _ _ _ _ g
  | .vmapAbs _ _ _ g | .vmapNeg _ _ _ g | .vfmaFma _ _ _ _ g | .vfmaFms _ _ _ _ g | .vfmaFnma _ _ _ _ g
  | .vfmaFnms _ _ _ _ g | .vcmpEq _ _ _ g | .vcmpNe _ _ _ g | .vcmpLt _ _ _ g | .vcmpLe _ _ _ g | .vcmpGt _ _ _ g
  | .vcmpGe _ _ _ g | .vcmpUn _ _ _ g | .vcmpOrd _ _ _ g | .vlogAnd _ _ _ g | .vlogOr _ _ _ g | .vlogXor _ _ _ g
  | .vlogAndn _ _ _ g | .vlogNot _ _ g | .vlogMnot _ _ g | .vshfShl _ _ _ g | .vshfShr _ _ _ g | .vshfSar _ _ _ g
  | .vshfRshr _ _ _ g | .vredSum _ _ _ g | .vredMax _ _ _ g | .vredMin _ _ _ g | .vredAmax _ _ _ g | .vredImax _ _ g
  | .vredImin _ _ g | .vxfExp2 _ _ _ g | .vxfLog2 _ _ _ g | .vxfRcp _ _ _ g | .vxfRsqrt _ _ _ g | .vxfSin _ _ _ g
  | .vxfCos _ _ _ g | .vcvtRne _ _ _ g | .vcvtRtz _ _ _ g | .vcvtRdn _ _ _ g | .vcvtRup _ _ _ g | .vcvtSrk _ _ _ g
  | .vselSel _ _ _ g | .vselGath _ _ _ g | .vselRgath _ _ _ g | .vselCmpr _ _ _ g | .vpermTr _ _ g | .vpermRev _ _ g
  | .vpermZip _ _ g | .vpermUnzip _ _ g
  | .lpostCp _ _ g | .lpostPkt _ _ g | .lshapeElem _ _ _ g | .lshapeScale _ _ _ g
  | .kplan _ _ _ g | .kplayCp _ _ g | .kplayFlag _ _ g | .kcommBind _ _ g | .kcommFree _ _ g
  | .qpostLd _ _ _ g | .qpostFlag _ _ _ g | .qapndPut _ _ g | .qapndAdv _ _ g | .qapndClr _ g => some g
  | _ => none

end Sys2Proof.Claims

/-- R58: a guarded instruction whose guard reads false changes nothing but the PC, and charges 1 cycle. Every
feature of R102 is taken to be there, and the slot class not to be 1, which R95 refuses the engine majors. -/
def Obligations.FalseGuardOnlyAdvances : Prop :=
  ∀ (s : State) (k : Nat) (i : Instr) (g : PredNo), guardOf i = some g →
    Ready s k [0, 1, 2, 3, 8, 9, 10, 11, 12, 32, 33, 34, 40, 48, 49, 50, 51] 0 1 → (s.slot k).cls ≠ 1 →
    (s.slot k).pred g = false → exec i s = .next (s.setSlot k (passed 4 1 (s.slot k)))

/-- R129 to R131: HINT of every kind changes nothing but the PC and the charge; GETC reads the state of the activation. HRET
and ZRET retire the activation: the pipeline is free, the slot keeps every register, predicate, loop-nest value and CSR
but USED, and an actor that is not exiting stays; one that is exiting is removed (R191). The NEXTKEY of the mailbox that
started it advances by one (R177). -/
def Obligations.ActivationControl : Prop :=
  ∀ (s : State) (k : Nat) (g : PredNo),
    (∀ (d : Dst) (kind : BitVec 7) (imm : BitVec 17), Ready s k [0] 0 1 →
      exec (.hint kind imm) s = .next (s.setSlot k (passed 4 1 (s.slot k))) ∧
      exec (.getcPc d) s = .next (gave s k 4 1 d ((s.slot k).pc.setWidth 64)) ∧
      exec (.getcHdr0 d) s = .next (gave s k 4 1 d (s.slot k).hdr0) ∧
      exec (.getcHdr1 d) s = .next (gave s k 4 1 d (s.slot k).hdr1) ∧
      ∃ v : Word, exec (.getcPrd d) s = .next (gave s k 4 1 d v) ∧
        ∀ j, v.getLsbD j = (decide (j < 8) && (s.slot k).pred (BitVec.ofNat 3 j))) ∧
    ((s.slot k).status = .live → (s.slot k).exiting = false → (s.slot k).rings = [] →
      let kept (t : State) : Prop :=
        let a := s.slot k
        let b := t.slot k
        b.status = .live ∧ b.phase = .idle ∧ (t.core (keyCore k)).running = none ∧
        (b.s, b.q, b.l, b.a, b.p, b.t, b.i, b.c, b.lb) = (a.s, a.q, a.l, a.a, a.p, a.t, a.i, a.c, a.lb) ∧
        (b.lcmap, b.beads, b.pc, b.flags, b.asid, b.ctxid, b.jobcol, b.budget, b.fcause, b.fpc, b.finst, b.faddr, b.emu) =
          (a.lcmap, a.beads, a.pc, a.flags, a.asid, a.ctxid, a.jobcol, a.budget, a.fcause, a.fpc, a.finst, a.faddr, a.emu) ∧
        b.used = a.used + 1 ∧ t.mem = s.mem ∧ t.net = s.net ∧ (∀ j, j ≠ k → t.slot j = s.slot j) ∧
        (∀ n : Fin 4, b.mb[n] = if a.keyed = some n then { a.mb[n] with nextKey := (a.mb[n]).nextKey + 1 } else a.mb[n])
      (Ready s k [0] g 1 → ∃ t, exec (.hret g) s = .next t ∧ kept t) ∧
      (Ready s k [1, 0] 0 1 → ∃ t, exec .zret s = .next t ∧ kept t)) ∧
    ((s.slot k).status = .live → (s.slot k).exiting = true → (s.slot k).rings = [] → (s.slot k).launch = none → Unheld s k →
      (Ready s k [0] g 1 → ∃ t, exec (.hret g) s = .next t ∧ (t.slot k).status ≠ .live) ∧
      (Ready s k [1, 0] 0 1 → ∃ t, exec .zret s = .next t ∧ (t.slot k).status ≠ .live))

/-! ### Ordinary loads and stores -/

namespace Sys2Proof.Claims

/-- rd(B) + OFF·size of format M (R143). -/
def formM (sl : Slot) (b : Src) (n : Nat) (off : BitVec 5) : Word :=
  BitVec.ofInt 64 ((sl.read b).toNat + off.toInt * n)

/-- The address of a 16-bit load or store (R66, R67). -/
def formZ (sl : Slot) (y : ZReg) (n : Nat) (off : BitVec 2) : Word :=
  BitVec.ofNat 64 ((sl.read (zSrc y)).toNat + off.toNat * n)

/-- The address of stream `g` from rd(B) (R101, R144). -/
def formX (sl : Slot) (b : Src) (g : BitVec 2) : Word :=
  BitVec.ofInt 64 ((sl.read b).toNat + ((List.range 4).map fun j => streamTerm sl (4 * g.toNat + j)).sum)

/-- The register value of an `n`-byte load (R143). -/
def loaded (v n : Nat) (signed : Bool) : Word :=
  if signed ∧ 2 ^ (8 * n) ≤ 2 * v then BitVec.ofInt 64 ((v : Int) - 2 ^ (8 * n)) else BitVec.ofNat 64 v

/-- The state with the translation of an access in the core's TLB, where a walk found it: the words that the walk read
have been resolved (R134, R358). -/
def walked (s : State) (k : Nat) (x : Xlate) : State := s.fillTlb (keyCore k) x

/-- An access of slot `k` passes every check (R143), its walk waits for nothing (R362), and it lies in a window page of
its own core that is neither MMIO nor a mailbox page; one that reads meets no poisoned word. -/
structure OwnAccess (s : State) (k : Nat) (kind : AccKind) (r : Reach) (va : Word) (n align : Nat) (x : Xlate) :
    Prop where
  passes : s.check (keyCore k) (s.slot k).asid (s.slot k).cls kind r va n align = .ok x
  own    : windowCore (paOf x.key) = some (keyCore k) ∧ windowOff (paOf x.key) < 0xF0000
  plain  : x.tt = 1 ∨ x.tt = 2 ∨ x.tt = 3
  clean  : kind = .store ∨ (walked s k x).poisoned x.key n = false
  free   : (walked s k x).stuck = none

/-- From `s` to `u` a walk of core `c` has at most counted the rows that its reads opened (R367) and entered its
translation in the TLB. -/
def WalkOnly (s u : State) (c : Nat) : Prop :=
  ∃ h : Vector Stack 8, (∀ j : Fin 8, ∃ a, h[j] = { s.hbm[j] with acts := a }) ∧
    (u = { s with hbm := h } ∨ ∃ l, u = ({ s with hbm := h } : State).modCore c fun co => { co with tlb := l })

/-- Slots other than `k` are as before but for the waits that a write may end (R156). -/
def OthersKeep (s t : State) (k : Nat) : Prop :=
  ∀ j, j ≠ k → t.slot j = { s.slot j with phase := (t.slot j).phase }

/-- From `s` to `t` exactly the `n` bytes at `key` change, to the little-endian bytes of `v`. -/
def BytesWritten (s t : State) (key n v : Nat) : Prop :=
  (∀ i < n, Memory.read t.mem (key + i) = BitVec.ofNat 8 (v / 2 ^ (8 * i))) ∧
  ∀ a, a < key ∨ key + n ≤ a → Memory.read t.mem a = Memory.read s.mem a

/-- What a store of the own core's storage leaves of the state `s` in which its walk has been made: the bytes, the slot
with its PC and charge, L and every register alone, and the rest of the machine. -/
def Stored (s t : State) (k len : Nat) (x : Xlate) (n v : Nat) : Prop :=
  BytesWritten s t x.key n v ∧ t.slot k = passed len 1 (s.slot k) ∧ OthersKeep s t k ∧
  (∀ c, c ≠ keyCore k → t.core c = s.core c) ∧ t.net = s.net ∧ t.module = s.module ∧ t.clusters = s.clusters ∧
  t.dies = s.dies ∧ t.sdie = s.sdie

/-- The access of slot `k` is on its way to the owner of its address, and the activation waits for the answer, its
pipeline free (R141). -/
def Asked (s t : State) (k : Nat) (x : Xlate) (op : MemOp) (cont : Cont) (len cost : Nat) : Prop :=
  ∃ r, t.net.reqs = s.net.reqs ++ [r] ∧ r.key = x.key ∧ r.op = op ∧ r.cont = some cont ∧ r.core = keyCore k ∧
    r.ctxid = (s.slot k).ctxid ∧ r.len = len ∧ r.cost = cost ∧ t.mem = s.mem ∧
    t.slot k = { s.slot k with phase := .blocked (.access r.id) } ∧ (t.core (keyCore k)).running = none

/-- Nothing else is on its way to memory or back, and nothing waits under the next number. -/
structure Lone (s : State) : Prop where
  reqs    : s.net.reqs = []
  answers : s.net.answers = []
  up      : s.module.down = []
  fresh   : ∀ j, (s.slot j).phase ≠ .blocked (.access s.nextId)

/-- An instruction `i` of slot `k` completes, in `v`, by its own step, that of its bank and that of the answer (R141,
R355). -/
def Served (s v : State) (i : Instr) : Prop :=
  ∃ t u, exec i s = .next t ∧ exec (.scratchpadAccess 0) t = .next u ∧ exec (.reply 0) u = .next v

/-- A slot whose waiting instruction has completed: charged, past it, and ready (R141). -/
def landed (s : State) (len cost : Nat) (sl : Slot) : Slot :=
  { passed len cost sl with phase := .ready, since := s.cycle, aged := 0 }

/-- An instruction `i` of slot `k` whose access of the own core's storage waits for its answer, from the state `u` with
its walk made: it asks, and where nothing else is on its way the slot comes to `sl` and memory to what `mem` says of it,
and nothing else changes. -/
def AsksOwn (s u : State) (k : Nat) (i : Instr) (x : Xlate) (op : MemOp) (cont : Cont) (cost : Nat) (sl : Slot)
    (mem : State → Prop) : Prop :=
  (∃ t, exec i s = .next t ∧ Asked u t k x op cont 4 cost) ∧
  (Lone u → ∃ v, Served s v i ∧ v.slot k = landed s 4 cost sl ∧ mem v ∧ OthersKeep u v k ∧ v.net = u.net ∧
    v.module = u.module ∧ ∀ c, c ≠ keyCore k → v.core c = u.core c)

end Sys2Proof.Claims

/-- R143, R144, R147, R67, R141: a load of the own core's storage completes in the pipeline with the bytes that stand
there, extended as its size says; memory and everything else but the TLB are as before. LDH waits for the answer of its
bank, which brings the 32 bytes of its handle. Where no word is in error and nothing waits, the walk has changed
nothing but the TLB and the counts of the rows that it opened. -/
def Obligations.LoadsReadOwnStorage : Prop :=
  ∀ (s : State) (k : Nat) (d : Dst) (b : Src) (sz : BitVec 2) (off : BitVec 5) (g : PredNo) (x : Xlate),
    let n := 2 ^ sz.toNat
    let sl := s.slot k
    let u := walked s k x
    (Ready s k [0] g 2 → OwnAccess s k .load .load (formM sl b n off) n n x →
      exec (.ld d b sz off g) s = .next (gave u k 4 2 d (loaded (u.loadLE x.key n) n true)) ∧
      exec (.ldn d b sz off g) s = .next (gave u k 4 2 d (loaded (u.loadLE x.key n) n false))) ∧
    (∀ (sx : BitVec 1) (i : BitVec 2), Ready s k [0, 2] g 2 → OwnAccess s k .load .load (formX sl b i) n n x →
      exec (.ldx d b sz sx i g) s = .next (gave u k 4 2 d (loaded (u.loadLE x.key n) n (sx = 1#1)))) ∧
    (∀ t : HandleNo, Ready s k [0] g 2 → OwnAccess s k .load .handle (formM sl b 32 off) 32 32 x →
      AsksOwn s u k (.ldh t b off g) x (.read 32) (.handle t) 2
        { u.slot k with t := (u.slot k).t.set t.toNat (BitVec.ofNat 256 (u.loadLE x.key 32)) t.isLt } fun v => v.mem = u.mem) ∧
    (∀ (y z : ZReg) (o : BitVec 2), Ready s k [1, 0] 0 2 →
      (OwnAccess s k .load .load (formZ sl z 8 o) 8 8 x →
        exec (.zld y z o) s = .next (gave u k 2 2 (zDst y) (loaded (u.loadLE x.key 8) 8 true))) ∧
      (OwnAccess s k .load .load (formZ sl z 4 o) 4 4 x →
        exec (.zldw y z o) s = .next (gave u k 2 2 (zDst y) (loaded (u.loadLE x.key 4) 4 true))) ∧
      (OwnAccess s k .load .load (formZ sl z 1 o) 1 1 x →
        exec (.zldb y z o) s = .next (gave u k 2 2 (zDst y) (loaded (u.loadLE x.key 1) 1 false)))) ∧
    (s.mayWait = false → (∀ j, (s.stack j).sound = true) → WalkOnly s u (keyCore k))

/-- R149: PWLD reads only the bytes that lie within SIZE of its window, gives zero for the rest, and raises PWOOB
where any byte lies outside. It waits for its answer wherever its bytes are (R141).
The model's own readings in it: log 43. -/
def Obligations.WindowLoadsStayWithinSize : Prop :=
  ∀ (s : State) (k : Nat) (d : Dst) (b : Src) (sz : BitVec 2) (sx : BitVec 1) (w : BitVec 3) (g : PredNo) (x : Xlate),
    let n := 2 ^ sz.toNat
    let sl := s.slot k
    let u := walked s k x
    let e := sl.pw[w.toNat]'w.isLt
    let o := sl.read b
    let size := e.2.toNat % 2 ^ 32
    let m := Nat.min n (size - o.toNat)
    let oob := decide (size < o.toNat + n)
    let raised (sl : Slot) (v : Word) (f : BitVec 7) : Slot := { wrote d v sl with flags := sl.flags ||| f }
    Ready s k [0] g 2 → e.1.getLsbD 63 = true → o.toNat % n = 0 →
    (size ≤ o.toNat → exec (.pwld d b sz sx w g) s = .next (s.setSlot k (passed 4 2 (raised sl 0 0x40)))) ∧
    (o.toNat < size →
      OwnAccess s k .load .load (BitVec.ofNat 64 (e.1.toNat / 8 % 2 ^ 49 * 8 + o.toNat)) m 1 x →
      AsksOwn s u k (.pwld d b sz sx w g) x (.read m) (.window d n (sx = 1#1) oob) 2
        (raised (u.slot k) (loaded (u.loadLE x.key m) n (sx = 1#1)) (if oob then 0x40 else 0)) fun v => v.mem = u.mem)

/-- R143, R144, R147, R67, R141: a store of the own core's storage writes exactly its bytes and leaves L and every
register alone. -/
def Obligations.StoresWriteOwnStorage : Prop :=
  ∀ (s : State) (k : Nat) (d b : Src) (sz : BitVec 2) (off : BitVec 5) (g : PredNo) (x : Xlate),
    let n := 2 ^ sz.toNat
    let sl := s.slot k
    let u := walked s k x
    let v := (sl.read d).toNat
    sl.phase = .running →
    (Ready s k [0] g 1 → OwnAccess s k .store .store (formM sl b n off) n n x →
      ∃ t, exec (.st d b sz off g) s = .next t ∧ Stored u t k 4 x n v) ∧
    (∀ i : BitVec 2, Ready s k [0, 2] g 1 → OwnAccess s k .store .store (formX sl b i) n n x →
      ∃ t, exec (.stx d b sz i g) s = .next t ∧ Stored u t k 4 x n v) ∧
    (∀ t : HandleNo, Ready s k [0] g 1 → OwnAccess s k .store .handle (formM sl b 32 off) 32 32 x →
      ∃ w, exec (.sth t b off g) s = .next w ∧ Stored u w k 4 x 32 (sl.t[t.toNat]'t.isLt).toNat) ∧
    ∀ (y z : ZReg) (o : BitVec 2), Ready s k [1, 0] 0 1 →
      let w := (sl.read (zSrc y)).toNat
      (OwnAccess s k .store .store (formZ sl z 8 o) 8 8 x →
        ∃ t, exec (.zst y z o) s = .next t ∧ Stored u t k 2 x 8 w) ∧
      (OwnAccess s k .store .store (formZ sl z 4 o) 4 4 x →
        ∃ t, exec (.zstw y z o) s = .next t ∧ Stored u t k 2 x 4 w) ∧
      (OwnAccess s k .store .store (formZ sl z 1 o) 1 1 x →
        ∃ t, exec (.zstb y z o) s = .next t ∧ Stored u t k 2 x 1 w)

namespace Sys2Proof.Claims

/-- The fault CSRs of a slot after a trap that CORE handles with an action (R211, R215). -/
def Recorded (sl sl' : Slot) (cause action retries : Nat) (addr : Word) : Prop :=
  sl'.fcause = BitVec.ofNat 64 (2 ^ 63 + 2 ^ 29 + action * 2 ^ 27 + retries * 2 ^ 16 + cause) ∧ sl'.fpc = sl.pc ∧
  sl'.finst = sl.inst ∧ sl'.faddr = addr

/-- The notice of a trap or freeze is on its way to TRAPDST of the core (R216). -/
def ToldTrap (s t : State) (k cause action : Nat) (frozen : Bool) (addr : Word) : Prop :=
  let sl := s.slot k
  let dst := (s.core (keyCore k)).trapdst
  ∃ m, t.net.flights = s.net.flights ++ [m] ∧ m.dst = bits dst 19 8 ∧ m.msg.kind = 6 ∧ m.msg.type = bits dst 7 0 ∧
    m.msg.mb.val = bits dst 21 20 ∧ m.msg.pay[1] = sl.pc.setWidth 64 ∧ m.msg.pay[2] = addr ∧
    m.msg.pay[3] = sl.ctxid.setWidth 64 ∧ bits m.msg.pay[0] 9 0 = cause ∧ bits m.msg.pay[0] 12 10 = 1 ∧
    bits m.msg.pay[0] 14 13 = action ∧ bit m.msg.pay[0] 15 = frozen

/-- The registers that a program computes with are those of another slot. -/
def SameRegs (sl sl' : Slot) : Prop :=
  sl'.s = sl.s ∧ sl'.q = sl.q ∧ sl'.l = sl.l ∧ sl'.a = sl.a ∧ sl'.p = sl.p ∧ sl'.t = sl.t ∧ sl'.i = sl.i ∧ sl'.c = sl.c ∧
  sl'.lb = sl.lb ∧ sl'.lcmap = sl.lcmap ∧ sl'.beads = sl.beads ∧ sl'.flags = sl.flags

/-- From `s` to `t` the activation of slot `k`, of class 2 or 3, has trapped: the trap is recorded and told to TRAPDST,
1 cycle is charged, no register is written, and the activation has ended (R210, R211, R215, R216). -/
def Trapped (s t : State) (k cause : Nat) (addr : Word) : Prop :=
  let sl := s.slot k
  Recorded sl (t.slot k) cause 0 0 addr ∧ ToldTrap s t k cause 0 false addr ∧ SameRegs sl (t.slot k) ∧
    (t.slot k).used = sl.used + 1 ∧ (t.slot k).phase = .idle ∧ (t.core (keyCore k)).running = none

/-- What lets a trap of slot `k` end its activation and nothing more: a live actor of class 2 or 3, the charge within
the budget, and no posted store held. -/
structure TrapsHigh (s : State) (k : Nat) : Prop where
  live   : (s.slot k).status = .live
  high   : 2 ≤ (s.slot k).cls.toNat
  unheld : Unheld s k

/-- From `s` to `t` the actor of slot `k` has been frozen at its instruction by a 0x020 (R63, R95, R215 to R217). -/
def Denied (s t : State) (k : Nat) : Prop :=
  let sl := s.slot k
  Recorded sl (t.slot k) 0x020 0 0 0 ∧ ToldTrap s t k 0x020 0 true 0 ∧ SameRegs sl (t.slot k) ∧
    (t.slot k).frozen = true ∧ (t.slot k).phase = .ready ∧ (t.slot k).pc = sl.pc ∧ (t.slot k).used = sl.used + 1 ∧
    (t.core (keyCore k)).running = none

end Sys2Proof.Claims

/-- R133, R211, R216, R215: an address above 2^52 traps with cause 0x105: the fault CSRs take the cause, the PC, the
instruction and the address, 1 cycle is charged, no register is written, and the activation of a class 2 or 3 actor
ends.
The model's own readings in it: log 7. -/
def Obligations.WideAddressesTrap : Prop :=
  ∀ (s : State) (k : Nat) (d : Dst) (u b : Src) (sz : BitVec 2) (off : BitVec 5) (g : PredNo),
    let ea := formM (s.slot k) b (2 ^ sz.toNat) off
    Ready s k [0] g 2 → TrapsHigh s k → 2 ^ 52 ≤ ea.toNat →
    ∀ i, (i = .ld d b sz off g ∨ i = .ldn d b sz off g ∨ i = .st u b sz off g) →
    ∃ t, exec i s = .next t ∧ Trapped s t k 0x105 ea

/-! ### Posted stores, fences, requests and replies -/

namespace Sys2Proof.Claims

/-- A posted store of the source of slot `k` that has not been performed. -/
def pending (s : State) (k : Nat) (r : Request) : Bool :=
  decide (r.core = keyCore k) && decide (r.ctxid = (s.slot k).ctxid) && r.cont.isNone

/-- A memory after a list of posted stores, in order. -/
def performedAll (m : Memory) (l : List Request) : Memory :=
  l.foldl (fun m r => match r.op with
    | .write n v => Memory.put m r.key (leBytes v n)
    | _ => m) m

/-- From `s` to `t` the posted stores of the source of slot `k` have been performed in program order, and no other
byte of memory has changed. -/
def Released (s t : State) (k : Nat) : Prop :=
  t.net.reqs = s.net.reqs.filter (fun r => !pending s k r) ∧
  t.mem = performedAll s.mem (s.net.reqs.filter (pending s k))

/-- The state after the running activation of slot `k` has begun to wait: the pipeline is free, the PC stays. -/
def blockedAt (s : State) (k : Nat) (w : Wait) : State :=
  (s.setSlot k { s.slot k with phase := .blocked w }).setCore (keyCore k) { s.core (keyCore k) with running := none }

end Sys2Proof.Claims

/-- R141, R155, R162, R362: a store to HBM is posted and changes no byte yet; an acquire changes nothing; a release of a
scope beyond LANE performs every posted store of its source in program order, and of no other, unless one is held: then
the fence waits, and has performed none.
The model's own readings in it: log 7. -/
def Obligations.ReleasesPerformPostedStores : Prop :=
  ∀ (s : State) (k : Nat),
    let sl := s.slot k
    (∀ (d b : Src) (sz : BitVec 2) (off : BitVec 5) (g : PredNo) (x : Xlate),
      let n := 2 ^ sz.toNat
      let ea := formM sl b n off
      let u := walked s k x
      Ready s k [0] g 1 → s.check (keyCore k) sl.asid sl.cls .store .store ea n n = .ok x → x.tt = 0 → x.prop ≠ 2 →
      u.stuck = none →
      ∃ t, exec (.st d b sz off g) s = .next t ∧ t.mem = u.mem ∧ t.slot k = passed 4 1 (u.slot k) ∧
        ∃ r, t.net.reqs = u.net.reqs ++ [r] ∧ pending u k r = true ∧ r.key = x.key ∧
          r.op = .write n ((sl.read d).toNat % 2 ^ (8 * n))) ∧
    (Ready s k [0] 0 1 →
      (∀ scope, exec (.fenceAcq scope) s = .next (s.setSlot k (passed 4 1 sl))) ∧
      exec (.fenceRel 0) s = .next (s.setSlot k (passed 4 1 sl)) ∧
      exec (.fenceFull 0) s = .next (s.setSlot k (passed 4 1 sl)) ∧
      ∀ scope : BitVec 3, scope ≠ 0 →
        (Unheld s k → sl.phase = .running →
          ∃ t, exec (.fenceRel scope) s = .next t ∧ exec (.fenceFull scope) s = .next t ∧ Released s t k ∧
            t.net = { s.net with reqs := t.net.reqs } ∧ t.slot k = passed 4 1 sl ∧ OthersKeep s t k) ∧
        ((∃ r ∈ s.net.reqs, pending s k r = true ∧ (s.waitsAt r.key r.op.size).isSome = true) →
          exec (.fenceRel scope) s = .next (blockedAt s k .drained) ∧
          exec (.fenceFull scope) s = .next (blockedAt s k .drained)))

/-- R141, R154, R355, R356, R362: a load of HBM or of another core's scratchpad sends a request and waits; the owner answers it
with the bytes that stand there, or a register with its value, and the answer completes the load and makes the activation
ready. One that its controller holds, or for whose word an earlier one waits there, waits at the controller. A posted store that its owner performs writes its bytes.
The model's own readings in it: log 59. -/
def Obligations.RequestsAreAnsweredByTheirOwners : Prop :=
  ∀ (s : State), s.stuck = none →
    (∀ (k : Nat) (d : Dst) (b : Src) (sz : BitVec 2) (off : BitVec 5) (g : PredNo) (x : Xlate),
      let n := 2 ^ sz.toNat
      let ea := formM (s.slot k) b n off
      Ready s k [0] g 2 → s.check (keyCore k) (s.slot k).asid (s.slot k).cls .load .load ea n n = .ok x →
      (x.tt = 5 ∨ windowCore (paOf x.key) ≠ some (keyCore k)) → (walked s k x).stuck = none →
      ∃ t, exec (.ld d b sz off g) s = .next t ∧ Asked (walked s k x) t k x (.read n) (.load d n true) 4 2) ∧
    (∀ (n m : Nat) (r : Request) (c : Cont), r.op = .read m → r.cont = some c →
      (isRegister r.key = false → s.poisoned r.key m = false →
        (s.performable n false = some r → 0 < m → (s.retiredAt r.key = false ∨ r.arrived = true) →
          (s.stack (stackOf (paOf r.key))).sound = true →
          ∃ t, exec (.request n) s = .next t ∧ t.mem = s.mem ∧ t.net.reqs = s.net.reqs.eraseIdx n ∧
            t.net.answers = s.net.answers ++ [r.answer c 0 (s.loadLE r.key m)]) ∧
        (s.performable n true = some r →
          s.bankGuarded r.key m false = false →
          exec (.scratchpadAccess n) s = .next (s.modNet fun q =>
            { q with reqs := q.reqs.eraseIdx n, answers := q.answers ++ [r.answer c 0 (s.loadLE r.key m)] }))) ∧
      (isRegister r.key = true → s.performable n false = some r →
        exec (.request n) s = .next (s.modNet fun q =>
          { q with reqs := q.reqs.eraseIdx n, answers := q.answers ++ [r.answer c 0 (s.mmioRead (paOf r.key) m)] }))) ∧
    (∀ (n m v : Nat) (r : Request), r.op = .write m v → r.cont = none → s.performable n false = some r →
      ∃ t, exec (.request n) s = .next t ∧ BytesWritten s t r.key m v ∧ t.net.reqs = s.net.reqs.eraseIdx n) ∧
    (∀ (n : Nat) (r : Request), s.reaching n false = some r → s.mustWait n r = true → r.arrived = false →
      s.retiredAt r.key = false → ∃ t, exec (.request n) s = .next t ∧ t.mem = s.mem ∧ t.net.answers = s.net.answers ∧
        t.net.reqs.Perm (s.net.reqs.eraseIdx n ++ [{ r with arrived := true }])) ∧
    ∀ (n k m : Nat) (a : Answer) (d : Dst) (sx : Bool), s.net.answers[n]? = some a → s.awaits a = some k → a.cause = 0 →
      a.cont = .load d m sx → m ≤ 8 → a.value < 2 ^ (8 * m) →
      exec (.reply n) s = .next ((s.modNet fun q => { q with answers := q.answers.eraseIdx n }).setSlot k
        { passed a.len a.cost (wrote d (loaded a.value m sx) (s.slot k)) with
          phase := .ready, since := s.cycle, aged := 0 })

/-! ### Atomics -/

/-- R150 to R154, R141: an atomic of the own scratchpad waits for its bank, which reads the old value and writes the new
one in one step; the old value goes to D. -/
def Obligations.AtomicsExchangeInOneStep : Prop :=
  ∀ (s : State) (k : Nat) (d : Dst) (a v : Src) (x : Xlate),
    let sl := s.slot k
    let u := walked s k x
    let ea := sl.read a
    let y := sl.read v
    let old := u.loadLE x.key 8
    let w := BitVec.ofNat 64 old
    let asks (i : Instr) (op : MemOp) (old : Word) (mem : State → Prop) : Prop :=
      AsksOwn s u k i x op (.value d) 2 (wrote d old (u.slot k)) mem
    let writes (n new : Nat) (t : State) : Prop := BytesWritten u t x.key n new
    let keeps (t : State) : Prop := t.mem = u.mem
    (u.slot k).phase = .running → Ready s k [0] 0 2 →
    (OwnAccess s k .atomic .atomic ea 8 8 x →
      asks (.amoAdd d a v) (.amo 0 y) w (writes 8 (old + y.toNat)) ∧
      asks (.amoAnd d a v) (.amo 1 y) w (writes 8 (w &&& y).toNat) ∧
      asks (.amoOr d a v) (.amo 2 y) w (writes 8 (w ||| y).toNat) ∧
      asks (.amoXor d a v) (.amo 3 y) w (writes 8 (w ^^^ y).toNat) ∧
      asks (.amoMin d a v) (.amo 4 y) w (writes 8 (if w.toInt ≤ y.toInt then w else y).toNat) ∧
      asks (.amoMax d a v) (.amo 5 y) w (writes 8 (if w.toInt ≤ y.toInt then y else w).toNat) ∧
      asks (.amoSwp d a v) (.amo 6 y) w (writes 8 y.toNat)) ∧
    (OwnAccess s k .atomic .atomic ea 12 4 x → s.hasFeat 3 = true →
      let add := (sl.read (pairSrc v)).setWidth 32 ++ y
      asks (.amoA96 d a v) (.a96 add) (BitVec.ofNat 64 (u.loadLE x.key 12)) (writes 12 (u.loadLE x.key 12 + add.toNat))) ∧
    (OwnAccess s k .atomic .atomic ea 4 4 x →
      let e := u.loadLE x.key 4
      asks (.casW d a v) (.cas 4 (sl.read (dstSrc d)) y) (BitVec.ofNat 64 e)
        (if e = (sl.read (dstSrc d)).toNat % 2 ^ 32 then writes 4 y.toNat else keeps)) ∧
    (OwnAccess s k .atomic .atomic ea 8 8 x →
      asks (.casD d a v) (.cas 8 (sl.read (dstSrc d)) y) w (if w = sl.read (dstSrc d) then writes 8 y.toNat else keeps)) ∧
    (OwnAccess s k .atomic .atomic ea 24 32 x →
      let rd := BitVec.ofNat 64 (u.loadLE (x.key + 8) 8)
      let cap := BitVec.ofNat 64 (u.loadLE (x.key + 16) 8)
      if y = 0 then asks (.qclaim d a v) (.claim y) w keeps
      else if w - rd + y ≤ cap then asks (.qclaim d a v) (.claim y) w (writes 8 (w + y).toNat)
      else asks (.qclaim d a v) (.claim y) 0xFFFFFFFFFFFFFFFF#64 keeps)

/-! ### Waits -/

/-- R156, R157: WADDR gives the word at once where its condition holds and else waits for a write to it; WBEAD goes on
where every counter is at or below its threshold and else waits.
The model's own readings in it: logs 9, 34. -/
def Obligations.WaitsEndOrBlock : Prop :=
  ∀ (s : State) (k : Nat),
    let sl := s.slot k
    (∀ (d : Dst) (a v : Src) (x : Xlate), Ready s k [0] 0 1 →
      s.check (keyCore k) sl.asid sl.cls .load .wait (sl.read a) 8 8 = .ok x →
      let u := walked s k x
      u.poisoned x.key 8 = false → u.stuck = none →
      let w := BitVec.ofNat 64 (u.loadLE x.key 8)
      let y := sl.read v
      let ended (p : Prop) (i : Instr) (f : BitVec 2) : Prop :=
        (p → exec i s = .next (gave u k 4 1 d w)) ∧
        (¬ p → exec i s = .next (blockedAt u k (.word x.key (sl.read a) f y d)))
      ended (w = y) (.waddrEq d a v) 0 ∧ ended (w ≠ y) (.waddrNe d a v) 1 ∧
      ended ((w - y).toNat < 2 ^ 63) (.waddrGes d a v) 2 ∧ ended (w &&& y ≠ 0) (.waddrAny d a v) 3) ∧
    ∀ ld st cp tl : BitVec 6, Ready s k [0] 0 1 →
      let low := sl.beads[0] ≤ ld ∧ sl.beads[1] ≤ st ∧ sl.beads[2] ≤ cp ∧ sl.beads[3] ≤ tl
      (low → exec (.wbead ld st cp tl) s = .next (s.setSlot k (passed 4 1 sl))) ∧
      (¬ low → exec (.wbead ld st cp tl) s = .next (blockedAt s k (.beads ld st cp tl)))

/-! ### Messages, mailboxes and actors -/

namespace Sys2Proof.Claims

/-- A message of slot `k` with a payload of q0 to q5 is put in flight in the step from `s` to `t`. -/
def Flew (s t : State) (k : Nat) (type : BitVec 8) (mb : BitVec 2) (f : Flight) : Prop :=
  let sl := s.slot k
  t.net.flights = s.net.flights ++ [f] ∧ f.core = keyCore k ∧ f.ctxid = sl.ctxid ∧ f.tries = 0 ∧ f.claimed = false ∧
  f.msg.pay = #v[sl.q[0], sl.q[1], sl.q[2], sl.q[3], sl.q[4], sl.q[5]] ∧ f.msg.type = type.toNat ∧
  f.msg.mb.val = mb.toNat

end Sys2Proof.Claims

/-- R188, R189, R179, R162: SEND and SENDR form a message from q0 to q5 and their operands and put it in flight to the
core that the address or the header names; the source's earlier posted stores have been performed then; bead ST rises,
or waits at 63 with nothing sent, and with a status word no bead is raised. RSV takes a reservation under a tag that the
slot does not hold, which the message carries, and waits while the slot has none left.
The model's own readings in it: logs 7, 25. -/
def Obligations.SendsPutTheirMessageInFlight : Prop :=
  ∀ (s : State) (k : Nat) (a b : Src) (type : BitVec 8) (mb : BitVec 2), Ready s k [0] 0 2 →
    let x := (s.slot k).read a
    let y := (s.slot k).read b
    (∀ z : Xlate, x.toNat % 2 ^ 16 = 0 → x.toNat < 2 ^ 52 → (y.getLsbD 27 = false ∨ y.toNat % 8 = 0) →
      s.translate (keyCore k) (s.slot k).asid (s.slot k).cls .store x = .ok z → z.tt = 4 →
      let u := walked s k z
      let sl := u.slot k
      let bead (sl : Slot) : Slot := { sl with beads := sl.beads.set 1 (sl.beads[1] + 1) }
      let noted (sl : Slot) : Slot := if y.getLsbD 27 = true then sl else bead sl
      u.stuck = none → sl.phase = .running →
      (Unheld u k → (y.getLsbD 27 = false → sl.beads[1] < 63) → (y.getLsbD 28 = true → sl.resv.length < sl.granted) →
        ∃ t f, exec (.send a b type mb) s = .next t ∧ Flew u t k type mb f ∧ Released u t k ∧
          f.report = (if y.getLsbD 27 = true then .status (y.toNat % 2 ^ 18) else .bead) ∧
          f.dst = (windowCore z.pa).getD 0 ∧ f.msg.vc = false ∧ f.msg.key = BitVec.ofNat 32 (y.toNat / 2 ^ 32) ∧
          (y.getLsbD 28 = false → t.slot k = passed 4 2 (noted sl) ∧ f.msg.rtag = 0) ∧
          (y.getLsbD 28 = true → t.slot k = passed 4 2 (noted { sl with
              resv := sl.resv ++ [f.msg.rtag], rtagNext := f.msg.rtag + 1 }) ∧
            (sl.resv.length < 15 → f.msg.rtag ≠ 0 ∧ f.msg.rtag ∉ sl.resv))) ∧
      (y.getLsbD 28 = true → sl.granted ≤ sl.resv.length →
        exec (.send a b type mb) s = .next (blockedAt u k .reservation)) ∧
      (y.getLsbD 27 = false → (y.getLsbD 28 = true → sl.resv.length < sl.granted) → sl.beads[1] = 63 →
        exec (.send a b type mb) s = .next (blockedAt u k (.beadRoom 1)))) ∧
    ((s.slot k).beads[1] = 63 → exec (.sendr a b type mb) s = .next (blockedAt s k (.beadRoom 1))) ∧
    (x.getLsbD 11 = true → x.toNat / 2 ^ 52 % 16 = 0 → x.toNat / 2 ^ 36 % 256 = s.module.nodeX.toNat →
      x.toNat / 2 ^ 44 % 256 = s.module.nodeY.toNat → (s.slot k).beads[1] < 63 → (s.slot k).phase = .running → Unheld s k →
      let sl := s.slot k
      ∃ t f, exec (.sendr a b type mb) s = .next t ∧ Flew s t k type mb f ∧ Released s t k ∧ f.report = .bead ∧
        f.dst = x.toNat / 2 ^ 24 % 4096 ∧ f.msg.vc = true ∧ f.msg.rtag = BitVec.ofNat 16 (y.toNat / 2 ^ 48) ∧
        t.slot k = passed 4 2 { sl with beads := sl.beads.set 1 (sl.beads[1] + 1) })

/-- R190: what each function of MBCFG does to a mailbox that holds no message, the status word, and its statuses BUSY and
DENIED. The mask of a set is read by ordinary loads, after the issuer's posted stores (R161).
The model's own readings in it: logs 7, 84, 92. -/
def Obligations.MailboxConfiguration : Prop :=
  ∀ (s : State) (k : Nat) (d : Dst) (a v : Src), Ready s k [0] 0 2 → (s.slot k).phase = .running →
    let sl := s.slot k
    let ctl := sl.read v
    let n : Fin 4 := ix 4 (ctl.toNat % 4)
    let m := sl.mb[n]
    let quota := ctl.toNat / 8 % 128
    let inWindow := m.held.filter fun h => h.entry = .quota
    let done (t : State) (m' : Mailbox) : Prop :=
      (t.slot k).mb = sl.mb.set n m' ∧ (t.slot k).l = 0 ∧ (t.slot k).pc = sl.pc + 4 ∧
      (∀ j, j ≠ k → (t.slot j).mb = (s.slot j).mb)
    (∀ (s' : State) (l : List Word), 1 ≤ quota → quota ≤ 64 → m.held = [] → s'.stuck = none →
      (s.release k).ordinaryWords (keyCore k) sl.asid sl.cls (sl.read a) 4 = .ok (s', l) →
      s'.poolUsed (keyCore k) - (if m.conf then m.quota.toNat else 0) + quota ≤ 128 →
      (s'.slot k).mb = sl.mb →
      ∃ t, exec (.mbcfgSet d a v) s = .next t ∧ (t.slot k).l = 0 ∧
        (t.slot k).mb = sl.mb.set n { m with
          conf := true, ord := ctl.getLsbD 2, quota := BitVec.ofNat 7 quota, nextKey := 0,
          mask := l.getD 3 0 ++ l.getD 2 0 ++ l.getD 1 0 ++ l.getD 0 0 }) ∧
    (m.held = [] → ∃ t, exec (.mbcfgOff d v) s = .next t ∧ done t .reset) ∧
    (m.held ≠ [] → exec (.mbcfgOff d v) s = .next (gave s k 4 2 d (2 ^ 63 + 3))) ∧
    (m.conf = true → m.ord = true → inWindow = [] →
      ∃ t, exec (.mbcfgKey d a v) s = .next t ∧ done t { m with nextKey := (sl.read a).setWidth 32 }) ∧
    (m.conf = true → m.ord = true → inWindow ≠ [] → exec (.mbcfgKey d a v) s = .next (gave s k 4 2 d (2 ^ 63 + 3))) ∧
    (m.conf = false ∨ m.ord = false → exec (.mbcfgKey d a v) s = .next (gave s k 4 2 d (2 ^ 63 + 4))) ∧
    exec (.mbcfgStat d v) s = .next (gave s k 4 2 d (BitVec.ofNat 64
      ((if m.conf ∧ m.ord then m.nextKey.toNat else 0) * 2 ^ 32 + m.conf.toNat * 2 ^ 15 + m.ord.toNat * 2 ^ 14 +
        m.quota.toNat * 2 ^ 7 + m.held.length))) ∧
    exec (.mbcfgRcan d) s = .next (s.setSlot k (passed 4 2 (wrote d 0 { sl with resv := [] })))

/-- R191: ACTOR.exit marks the actor, ACTOR.kill removes its target or gives NOOBJ or DENIED, and ACTOR.new creates the
actor of its record in the slot that it finds: the object's load descriptor and vector records are read first, and none
of their words is held (R362).
The model's own readings in it: log 7. -/
def Obligations.ActorsAreCreatedAndEnded : Prop :=
  ∀ (s : State) (k : Nat) (d : Dst) (a : Src), Ready s k [0] 0 4 →
    let sl := s.slot k
    let c := keyCore k
    let tgt := slotKey ((sl.read a).toNat % 4096) ((sl.read a).toNat / 4096 % 8)
    exec .actorExit s = .next (s.setSlot k (passed 4 4 { sl with exiting := true })) ∧
    ((s.slot tgt).status ≠ .live → exec (.actorKill d a) s = .next (gave s k 4 4 d (2 ^ 63 + 2))) ∧
    ((s.slot tgt).status = .live → sl.cls.toNat < 2 → (s.slot tgt).asid ≠ sl.asid →
      exec (.actorKill d a) s = .next (gave s k 4 4 d (2 ^ 63 + 4))) ∧
    ((s.slot tgt).status = .live → tgt ≠ k → sl.status = .live → (2 ≤ sl.cls.toNat ∨ (s.slot tgt).asid = sl.asid) →
      (s.removeActor tgt (some 0x212)).stuck = none →
      ∃ t, exec (.actorKill d a) s = .next t ∧ (t.slot tgt).status ≠ .live ∧ (t.slot k).l = 0 ∧
        (t.slot k).pc = sl.pc + 4) ∧
    ∀ (s₁ : State) (l : List Word) (r : Creation) (n : Nat),
      (s.release k).ordinaryWords c sl.asid sl.cls (sl.read a) 4 = .ok (s₁, l) → creationOf l sl.asid = (r, true) →
      let s' := s₁.openObject r.desc
      s'.stuck = none →
      r.fits = true → sl.cls ≠ 1 → (sl.cls = 0 → r.cls.toNat < 2 ∧ r.colour = sl.jobcol) →
      (2 ≤ r.cls.toNat → s'.tenant c r.asid = false) → s'.current r.desc r.gen = true → s'.placeFor c r = .ok n →
      slotKey c n ≠ k →
      ∃ t, exec (.actorNew d a) s = .next t ∧ (t.slot k).l = BitVec.ofNat 64 n ∧
        let b := t.slot (slotKey c n)
        b.status = .live ∧ b.cls = r.cls ∧ b.asid = r.asid ∧ b.jobcol = r.colour ∧ b.desc = r.desc ∧ b.gen = r.gen ∧
        b.act = r.act ∧ b.phase = .idle ∧ b.pw = .replicate 8 (0, 0) ∧ b.ctxid = s'.nextCtx c ∧
        (b.mb[0]).conf = true ∧ (b.mb[0]).ord = false ∧ (b.mb[0]).quota = BitVec.ofNat 7 r.mb0q ∧
        (b.mb[0]).held = []

/-- R195, R198, R170: an accepted LAUNCH queues its record under an id that no outstanding launch of the die has, with the
launcher's job colour; JOIN.stat reads the counts of a launch, and JOIN.kill gives the number of children it has removed or
cancelled.
The model's own readings in it: logs 7, 22. -/
def Obligations.LaunchesAreQueuedAndJoined : Prop :=
  ∀ (s : State) (k : Nat) (d : Dst) (a v : Src),
    let sl := s.slot k
    let c := keyCore k
    let die := dieOf c
    let id := (sl.read a).toNat
    (∀ (s₁ s₃ : State) (l b : List Word) (act : Nat), Ready s k [0] 0 4 → sl.cls ≠ 1 → (sl.read a).toNat % 64 = 0 →
      (s.release k).ordinaryWords c sl.asid sl.cls (sl.read a) 8 = .ok (s₁, l) →
      s₁.ordinaryWords c sl.asid sl.cls (blockAddr (vec8 l)) (blockWords (vec8 l)) = .ok (s₃, b) →
      let s₂ := s₃.openObject (vec8 l)[2]
      s₂.stuck = none → s₂.launchStatus die c (vec8 l) (sl.read v).toNat sl.asid (if sl.cls = 0 then some sl.jobcol else none) = .ok act →
      (s₂.die die).queued < 64 → (wantsJoin (vec8 l) = false ∨ s₂.poolFree c 1 = true) →
      ∃ t x, exec (.launch d a v) s = .next t ∧ (t.slot k).l = BitVec.ofNat 64 x.id ∧
        (t.die die).launches = (s₂.die die).launches ++ [x] ∧ x.id < 2 ^ 32 ∧
        ((s₂.die die).launches.length < 2 ^ 32 → ∀ y ∈ (s₂.die die).launches, y.id ≠ x.id) ∧ x.jobcol = sl.jobcol ∧
        x.words = vec8 l ∧ x.asid = sl.asid ∧ x.placed = 0 ∧ x.completed = 0 ∧ x.faulted = 0 ∧
        x.cores = placement (bits (vec8 l)[0] 26 24) (bits (vec8 l)[0] 59 48) (vec8 l)[1] ∧
        x.waiting = List.range x.cores.length) ∧
    (Ready s k [0] 0 2 →
      (s.launchOf die id = none → exec (.joinStat d a) s = .next (gave s k 4 2 d (2 ^ 63 + 2)) ∧
        exec (.joinKill d a) s = .next (gave s k 4 2 d (2 ^ 63 + 2))) ∧
      ∀ x, s.launchOf die id = some x →
        (x.asid ≠ sl.asid → exec (.joinStat d a) s = .next (gave s k 4 2 d (2 ^ 63 + 4)) ∧
          exec (.joinKill d a) s = .next (gave s k 4 2 d (2 ^ 63 + 4))) ∧
        (x.asid = sl.asid →
          exec (.joinStat d a) s = .next (gave s k 4 2 d (BitVec.ofNat 64
            (x.n * 2 ^ 48 + x.placed * 2 ^ 32 + x.faulted * 2 ^ 16 + x.completed))) ∧
          ((s.killLaunch die x).1.stuck = none → ((s.killLaunch die x).1.slot k).status = .live →
            exec (.joinKill d a) s =
              .next (gave (s.killLaunch die x).1 k 4 2 d (BitVec.ofNat 64 (s.killLaunch die x).2)))))

/-! ### Work lists, barriers, quiescence and range guards -/

namespace Sys2Proof.Claims

/-- The items of a die's work list of a core and colour, oldest first (R199). -/
def itemsOf (s : State) (die core : Nat) (colour : BitVec 6) : List WorkItem :=
  (s.die die).work.filter fun w => w.core = core ∧ w.colour = colour

end Sys2Proof.Claims

/-- R200, R201: WLAPP appends its pair at the end of the list of its target core and colour, unless the list is full, and
WLTAKE takes the oldest item of its own core's list, else the newest of the first other list that holds one, else it gives EMPTY
and zeros. An append releases the source's posted stores.
The model's own readings in it: log 7. -/
def Obligations.WorkItemsAreAppendedAndTaken : Prop :=
  ∀ (s : State) (k : Nat) (d : Dst) (a v : Src), Ready s k [0] 0 2 →
    let sl := s.slot k
    let die := dieOf (keyCore k)
    let core := die * 1024 + (sl.read a).toNat % 1024
    let free := (s.colour sl.jobcol).preempting = false ∧ (itemsOf s die core sl.jobcol).length < 256 ∧
      (s.die die).work.length < 65536
    (free → Unheld s k → exec (.wlapp d a v) s = .next (gave
      ((s.release k).modDie die fun u => { u with work := u.work ++ [⟨core, sl.jobcol, sl.read v, sl.read (pairSrc v)⟩] })
      k 4 2 d 0)) ∧
    (¬ free → exec (.wlapp d a v) s = .next (gave s k 4 2 d (2 ^ 63 + 7))) ∧
    (∀ (w : WorkItem) (rest : List WorkItem), itemsOf s die (keyCore k) sl.jobcol = w :: rest →
      ∀ i, (i = .wltakeCore d v ∨ i = .wltakeQuad d v ∨ i = .wltakeClus d v) →
      ∃ t, exec i s = .next t ∧ itemsOf t die (keyCore k) sl.jobcol = rest ∧
        t.slot k = passed 4 2 (wrote d 0 ((sl.put w.lo (srcDst v)).put w.hi (srcDst (pairSrc v)))) ∧
        ∀ o p, (o ≠ keyCore k ∨ p ≠ sl.jobcol) → itemsOf t die o p = itemsOf s die o p) ∧
    ∀ (i : Instr) (f : Nat), (i, f) ∈ [(Instr.wltakeCore d v, 0), (.wltakeQuad d v, 1), (.wltakeClus d v, 2)] →
      itemsOf s die (keyCore k) sl.jobcol = [] →
      ((∀ o ∈ takeOrder f (keyCore k), itemsOf s die o.1 sl.jobcol = []) → exec i s = .next (s.setSlot k
        (passed 4 2 (wrote d (2 ^ 63 + 8) ((sl.put 0 (srcDst v)).put 0 (srcDst (pairSrc v))))))) ∧
      ∀ pre post o r items w, takeOrder f (keyCore k) = pre ++ (o, r) :: post →
        (∀ e ∈ pre, itemsOf s die e.1 sl.jobcol = []) → itemsOf s die o sl.jobcol = items ++ [w] →
        ∃ t, exec i s = .next t ∧ itemsOf t die o sl.jobcol = items ∧
          t.slot k = passed 4 2 (wrote d (BitVec.ofNat 64 r)
            ((sl.put w.lo (srcDst v)).put w.hi (srcDst (pairSrc v))))

/-- R203 to R205, R162: allocating, arriving at, waiting on and freeing a hardware barrier. The last arrival of a round
advances PHASE and ends the waits that it satisfies; BWAIT ends once PHASE has reached its target; a handle that is not
usable here traps with 0x204. An arrival performs the source's posted stores. The model's own choices: which free
barrier BALLOC takes, and that a release is performed at once.
The model's own readings in it: logs 7, 9, 85. -/
def Obligations.BarriersCountTheirArrivals : Prop :=
  ∀ (s : State) (k : Nat) (d : Dst) (a v : Src),
    let sl := s.slot k
    let c := keyCore k
    let h := sl.read a
    let scope := h.toNat / 256 % 8
    let n := h.toNat % 128
    (∀ sc : BitVec 3, Ready s k [0] 0 2 → scopeHasPool sc = true →
      (h.toNat % 2 ^ 16 = 0 → exec (.balloc sc d a) s = .next (gave s k 4 2 d (2 ^ 63 + 5))) ∧
      (h.toNat % 2 ^ 16 ≠ 0 → (∀ i < poolSize sc.toNat, (AMap.get .reset (s.pool sc.toNat c) i).alloc = true) →
        exec (.balloc sc d a) s = .next (gave s k 4 2 d (2 ^ 63 + 1))) ∧
      ∀ i, h.toNat % 2 ^ 16 ≠ 0 → i < poolSize sc.toNat → (AMap.get .reset (s.pool sc.toNat c) i).alloc = false →
        (∀ j < i, (AMap.get .reset (s.pool sc.toNat c) j).alloc = true) →
        exec (.balloc sc d a) s = .next (gave
          (s.setBarrier sc.toNat c i ⟨true, h.setWidth 16, 0, 0, sl.asid, BitVec.ofNat 12 c, sc⟩) k 4 2 d
          (BitVec.ofNat 64 (c % 4096 * 2 ^ 12 + sc.toNat * 2 ^ 8 + i)))) ∧
    (∀ b, s.barrierOf k h = some b →
      (Ready s k [0] 0 2 → Unheld s k → sl.phase = .running →
        let b' : Barrier := if b.cnt + 1 = b.n then { b with cnt := 0, phase := b.phase + 1 } else { b with cnt := b.cnt + 1 }
        ∃ t, exec (.barr d a) s = .next t ∧ Released s t k ∧
          AMap.get .reset (t.pool scope c) n = b' ∧ t.slot k = passed 4 2 (wrote d ((b.phase + 1).setWidth 64) sl) ∧
          ∀ j p e, j ≠ k → (s.slot j).phase = .blocked (.barrier h p e) → (s.release k).slot j = s.slot j →
            t.slot j = if (b'.phase - p).toNat < 2 ^ 31 then
              { s.slot j with phase := .blocked (.woken (b'.phase.setWidth 64) e) } else s.slot j) ∧
      (Ready s k [0] 0 1 →
        let p := (sl.read v).setWidth 32
        ((b.phase - p).toNat < 2 ^ 31 → exec (.bwait d a v) s = .next (gave s k 4 1 d (b.phase.setWidth 64))) ∧
        (2 ^ 31 ≤ (b.phase - p).toNat → exec (.bwait d a v) s = .next (blockedAt s k (.barrier h p d)))) ∧
      (Ready s k [0] 0 2 → b.cnt = 0 → s.barrierWaited h = false →
        exec (.bfree d a) s = .next (gave (s.setBarrier scope c n .reset) k 4 2 d 0)) ∧
      (Ready s k [0] 0 2 → b.cnt ≠ 0 ∨ s.barrierWaited h = true →
        exec (.bfree d a) s = .next (gave s k 4 2 d (2 ^ 63 + 3)))) ∧
    (s.barrierOf k h = none → TrapsHigh s k →
      (Ready s k [0] 0 2 → ∀ i, (i = .barr d a ∨ i = .bfree d a) → ∃ t, exec i s = .next t ∧ Trapped s t k 0x204 0) ∧
      (Ready s k [0] 0 1 → ∃ t, exec (.bwait d a v) s = .next t ∧ Trapped s t k 0x204 0))

/-- R202: arming, disarming and testing a quiescence detector of the CLUS, DIE or MOD set around the issuer. -/
def Obligations.QuiescenceDetectors : Prop :=
  ∀ (s : State) (k : Nat) (d : Dst) (a v : Src), Ready s k [0] 0 2 →
    let sl := s.slot k
    let c := keyCore k
    let w := sl.read v
    let scope := w.toNat / 2 ^ 10 % 8
    let colour : BitVec 6 := (sl.read a).setWidth 6
    let named (x : Detector) : Prop := x.scope = scope ∧ x.set = scopeSet scope c ∧ x.colour = colour
    (2 ≤ sl.cls.toNat ∨ colour = sl.jobcol) → 3 ≤ scope → scope ≤ 5 →
    ((∀ x ∈ s.module.detect, ¬ named x) → s.poolFree c 1 = true →
      ∃ t, exec (.quiesArm d a v) s = .next t ∧ (t.slot k).l = 0 ∧
        t.module.detect = s.module.detect ++
          [⟨scope, scopeSet scope c, colour, c, keySlot k, sl.ctxid, sl.cls, w.setWidth 8, w.extractLsb' 8 2, sl.jobcol⟩] ∧
        (t.core c).claimed = (s.core c).claimed + 1) ∧
    ((∃ x ∈ s.module.detect, named x) → exec (.quiesArm d a v) s = .next (gave s k 4 2 d (2 ^ 63 + 3)) ∧
      ∃ t, exec (.quiesDisarm d a v) s = .next t ∧ (t.slot k).l = 0 ∧ ∀ x ∈ t.module.detect, ¬ named x) ∧
    ((∀ x ∈ s.module.detect, ¬ named x) → exec (.quiesDisarm d a v) s = .next (gave s k 4 2 d (2 ^ 63 + 2))) ∧
    exec (.quiesTest d a v) s = .next (gave s k 4 2 d (if s.quiescent scope c colour then 1 else 0))

/-- R158, R207: RGSET enters a range in a free entry of the core's range guard table, and clears an entry of its own. That
it is the lowest free one is the model's choice.
The model's own readings in it: logs 38, 85. -/
def Obligations.RangeGuardsAreSetAndCleared : Prop :=
  ∀ (s : State) (k : Nat) (d : Dst) (a v : Src), Ready s k [0] 0 2 →
    let sl := s.slot k
    let c := keyCore k
    let va := sl.read a
    let n := (sl.read v).toNat % 2 ^ 32
    (∀ (x : Xlate) (i : Nat), s.translate c sl.asid sl.cls .load va = .ok x → (walked s k x).stuck = none → n ≠ 0 →
      va.toNat % 2 ^ x.bits + n ≤ 2 ^ x.bits → i < 16 → (∀ g ∈ (s.core c).guards, g.idx ≠ i) →
      (∀ j < i, ∃ g ∈ (s.core c).guards, g.idx = j) →
      ∀ (write : Bool) (e : Instr), e = (if write then .rgsetWr d a v else .rgsetRd d a v) →
      ∃ t g, exec e s = .next t ∧ (t.slot k).l = BitVec.ofNat 64 i ∧ (t.core c).guards = (s.core c).guards ++ [g] ∧
        g.idx = i ∧ g.len = n ∧ g.write = write ∧ g.cmd = none ∧ g.core = c ∧ g.ctxid = sl.ctxid ∧
        ((windowCore x.pa).isSome = true → g.space = .phys ∧ g.lo = x.key) ∧
        ((windowCore x.pa).isSome = false → g.space = .virt sl.asid ∧ g.lo = va.toNat)) ∧
    let mine (g : Guard) : Prop := g.idx = va.toNat % 16 ∧ g.cmd = none ∧ g.core = c ∧ g.ctxid = sl.ctxid
    ((∃ g ∈ (s.core c).guards, mine g) →
      ∃ t, exec (.rgsetClr d a) s = .next t ∧ (t.slot k).l = 0 ∧ (∀ g ∈ (t.core c).guards, ¬ mine g) ∧
        ∀ g ∈ (s.core c).guards, ¬ mine g → g ∈ (t.core c).guards) ∧
    ((∀ g ∈ (s.core c).guards, ¬ mine g) → exec (.rgsetClr d a) s = .next (gave s k 4 2 d (2 ^ 63 + 2)))

/-! ### Issue of engine commands -/

namespace Sys2Proof.Claims

/-- The MXU instructions (R253 to R260): guard, features, OPC, F, CTL and the handles with their roles (R241) in order;
the flag tells a destination. -/
def matrixOf : Instr → Option (PredNo × List Nat × Nat × Nat × Nat × List Operand)
  | .mma td ta tb g => some (g, [8], 0x40, 0, 0, [(td, .tile, true), (ta, .a, false), (tb, .b, false)])
  | .mzeroZero td g => some (g, [8], 0x41, 0, 0, [(td, .tile, true)])
  | .mzeroLoad td ta g => some (g, [8], 0x41, 1, 0, [(td, .tile, true), (ta, .image, false)])
  | .mzeroAdd td ta g => some (g, [8], 0x41, 2, 0, [(td, .tile, true), (ta, .image, false)])
  | .mzeroStat td ta g => some (g, [8], 0x41, 3, 0, [(td, .tile, true), (ta, .addr, false)])
  | .mcvtRne td ta ctl g => some (g, [8], 0x42, 0, ctl.toNat, [(td, .dst, true), (ta, .tile, false)])
  | .mcvtRtz td ta ctl g => some (g, [8], 0x42, 1, ctl.toNat, [(td, .dst, true), (ta, .tile, false)])
  | .mcvtRdn td ta ctl g => some (g, [8], 0x42, 2, ctl.toNat, [(td, .dst, true), (ta, .tile, false)])
  | .mcvtRup td ta ctl g => some (g, [8], 0x42, 3, ctl.toNat, [(td, .dst, true), (ta, .tile, false)])
  | .mcvtSrk td ta ctl g => some (g, [8, 40], 0x42, 4, ctl.toNat, [(td, .dst, true), (ta, .tile, false)])
  | .mresc td ta tb g => some (g, [8], 0x43, 0, 0, [(td, .dst, true), (ta, .tile, false), (tb, .mult, false)])
  | .mstatRd td ta g => some (g, [8], 0x44, 0, 0, [(td, .addr, true), (ta, .tile, false)])
  | .mstatRdclr td ta g => some (g, [8], 0x44, 1, 0, [(td, .addr, true), (ta, .tile, false)])
  | .manch td g => some (g, [8], 0x45, 0, 0, [(td, .tile, true)])
  | .mbput td ta g => some (g, [8], 0x46, 0, 0, [(td, .b, true), (ta, .source, false)])
  | _ => none

/-- The vector instructions (R284 to R293): guard, features, OPC, F, CTL, TD, TA and, where the major uses it (R296),
TB. -/
def vectorOf : Instr → Option (PredNo × List Nat × Nat × Nat × Nat × HandleNo × HandleNo × Option HandleNo)
  | .vmapAdd d a b c g => some (g, [32], 0x48, 0, c.toNat, d, a, some b)
  | .vmapSub d a b c g => some (g, [32], 0x48, 1, c.toNat, d, a, some b)
  | .vmapMul d a b c g => some (g, [32], 0x48, 2, c.toNat, d, a, some b)
  | .vmapMin d a b c g => some (g, [32], 0x48, 3, c.toNat, d, a, some b)
  | .vmapMax d a b c g => some (g, [32], 0x48, 4, c.toNat, d, a, some b)
  | .vmapAbs d a c g => some (g, [32], 0x48, 5, c.toNat, d, a, none)
  | .vmapNeg d a c g => some (g, [32], 0x48, 6, c.toNat, d, a, none)
  | .vfmaFma d a b c g => some (g, [32], 0x49, 0, c.toNat, d, a, some b)
  | .vfmaFms d a b c g => some (g, [32], 0x49, 1, c.toNat, d, a, some b)
  | .vfmaFnma d a b c g => some (g, [32], 0x49, 2, c.toNat, d, a, some b)
  | .vfmaFnms d a b c g => some (g, [32], 0x49, 3, c.toNat, d, a, some b)
  | .vcmpEq d a b g => some (g, [32], 0x4A, 0, 0, d, a, some b)
  | .vcmpNe d a b g => some (g, [32], 0x4A, 1, 0, d, a, some b)
  | .vcmpLt d a b g => some (g, [32], 0x4A, 2, 0, d, a, some b)
  | .vcmpLe d a b g => some (g, [32], 0x4A, 3, 0, d, a, some b)
  | .vcmpGt d a b g => some (g, [32], 0x4A, 4, 0, d, a, some b)
  | .vcmpGe d a b g => some (g, [32], 0x4A, 5, 0, d, a, some b)
  | .vcmpUn d a b g => some (g, [32], 0x4A, 6, 0, d, a, some b)
  | .vcmpOrd d a b g => some (g, [32], 0x4A, 7, 0, d, a, some b)
  | .vlogAnd d a b g => some (g, [32], 0x4B, 0, 0, d, a, some b)
  | .vlogOr d a b g => some (g, [32], 0x4B, 1, 0, d, a, some b)
  | .vlogXor d a b g => some (g, [32], 0x4B, 2, 0, d, a, some b)
  | .vlogAndn d a b g => some (g, [32], 0x4B, 3, 0, d, a, some b)
  | .vlogNot d a g => some (g, [32], 0x4B, 4, 0, d, a, none)
  | .vlogMnot d a g => some (g, [32], 0x4B, 5, 0, d, a, none)
  | .vshfShl d a b g => some (g, [32], 0x4C, 0, 0, d, a, some b)
  | .vshfShr d a b g => some (g, [32], 0x4C, 1, 0, d, a, some b)
  | .vshfSar d a b g => some (g, [32], 0x4C, 2, 0, d, a, some b)
  | .vshfRshr d a b g => some (g, [32], 0x4C, 3, 0, d, a, some b)
  | .vredSum d a c g => some (g, [32], 0x4D, 0, c.toNat, d, a, none)
  | .vredMax d a c g => some (g, [32], 0x4D, 1, c.toNat, d, a, none)
  | .vredMin d a c g => some (g, [32], 0x4D, 2, c.toNat, d, a, none)
  | .vredAmax d a c g => some (g, [32], 0x4D, 3, c.toNat, d, a, none)
  | .vredImax d a g => some (g, [32], 0x4D, 4, 0, d, a, none)
  | .vredImin d a g => some (g, [32], 0x4D, 5, 0, d, a, none)
  | .vxfExp2 d a c g => some (g, [32, 33], 0x4E, 0, c.toNat, d, a, none)
  | .vxfLog2 d a c g => some (g, [32, 33], 0x4E, 1, c.toNat, d, a, none)
  | .vxfRcp d a c g => some (g, [32, 33], 0x4E, 2, c.toNat, d, a, none)
  | .vxfRsqrt d a c g => some (g, [32, 33], 0x4E, 3, c.toNat, d, a, none)
  | .vxfSin d a c g => some (g, [32, 34], 0x4E, 4, c.toNat, d, a, none)
  | .vxfCos d a c g => some (g, [32, 34], 0x4E, 5, c.toNat, d, a, none)
  | .vcvtRne d a c g => some (g, [32], 0x4F, 0, c.toNat, d, a, none)
  | .vcvtRtz d a c g => some (g, [32], 0x4F, 1, c.toNat, d, a, none)
  | .vcvtRdn d a c g => some (g, [32], 0x4F, 2, c.toNat, d, a, none)
  | .vcvtRup d a c g => some (g, [32], 0x4F, 3, c.toNat, d, a, none)
  | .vcvtSrk d a c g => some (g, [32, 40], 0x4F, 4, c.toNat, d, a, none)
  | .vselSel d a b g => some (g, [32], 0x50, 0, 0, d, a, some b)
  | .vselGath d a b g => some (g, [32], 0x50, 1, 0, d, a, some b)
  | .vselRgath d a b g => some (g, [32], 0x50, 2, 0, d, a, some b)
  | .vselCmpr d a b g => some (g, [32], 0x50, 3, 0, d, a, some b)
  | .vpermTr d a g => some (g, [32], 0x51, 0, 0, d, a, none)
  | .vpermRev d a g => some (g, [32], 0x51, 1, 0, d, a, none)
  | .vpermZip d a g => some (g, [32], 0x51, 2, 0, d, a, none)
  | .vpermUnzip d a g => some (g, [32], 0x51, 3, 0, d, a, none)
  | _ => none

/-- Nothing makes the issue of an engine command wait (R91, R159, R180, R244, R362): the bead that it raises is below 63,
its guard entries are free, the inbox has room, and neither its reads nor the source's posted stores are held. -/
structure Goes (s : State) (k : Nat) (bead : Option (Fin 4)) (ranges : Nat) (room : Bool) : Prop where
  bead   : ∀ b, bead = some b → (s.slot k).beads[b] ≠ 63
  guards : ranges ≤ (s.freeGuards (keyCore k)).length
  room   : room = true
  unheld : Unheld s k
  free   : s.stuck = none

/-- The slot after an engine instruction: its PC, its charge and the bead that it raises, and nothing else. -/
def issued (cost : Nat) (bead : Option (Fin 4)) (sl : Slot) : Slot :=
  passed 4 cost (match bead with
    | some b => { sl with beads := sl.beads.set b (sl.beads[b] + 1) }
    | none => sl)

/-- Every range of a core's own window in the list stands in its guard table for the command (R16, R252). -/
def Guarded (t : State) (k : Nat) (id : Nat) (rs : List Range) : Prop :=
  ∀ r ∈ rs, ∃ g ∈ (t.core (keyCore k)).guards, g.space = .phys ∧ g.lo = t.winKey (keyCore k) r.1 ∧ g.len = r.2.1 ∧
    g.write = r.2.2 ∧ g.cmd = some id

/-- The issue of a command by the running activation: its slot, the other slots but for the waits that the released
stores end, and its own posted stores performed, and no other byte of memory changed (R162). -/
def IssuedFrom (s t : State) (k cost : Nat) (bead : Option (Fin 4)) : Prop :=
  t.slot k = issued cost bead (s.slot k) ∧ OthersKeep s t k ∧ Released s t k

end Sys2Proof.Claims

/-- R244 to R248, R252: an MXU instruction whose handles, tile and anchor are acceptable puts one command into the inbox of
its core's MXU: OPC, F, CTL, the tile, a bead reply on bead 3, the slot, the context, TRCLIM and the translated planes;
its ranges are guarded and bead 3 is raised. MPOST (R261) puts the words that its handle names, with SLOT, CTXID, COLOUR
and ASID overwritten by the issuer's. Issue performs the source's posted stores.
The model's own readings in it: logs 7, 93. -/
def Obligations.MatrixInstructionsAreIssued : Prop :=
  ∀ (s : State) (k : Nat), (s.slot k).cls ≠ 1 →
    let c := keyCore k
    let sl := s.slot k
    (∀ (i : Instr) (g : PredNo) (feats : List Nat) (opc f ctl : Nat) (ops : List Operand) (u : State) (ps : List Plane),
      matrixOf i = some (g, feats, opc, f, ctl, ops) → Ready s k feats g 2 →
      let hs := ops.map fun o => (sl.handle o.1, o.2)
      s.missing (hs.map (·.1)) = none →
      (∀ h ∈ hs, h.1.ok (opc = 0x42 ∧ f = 4 ∧ h.2.1 = .dst) = true) →
      (∀ h ∈ hs, h.2.1.ok (h.1.plane (h.1.base.toNat % 0x10000) 0) = true) →
      crossOk opc (hs.map fun h => h.1.plane (h.1.base.toNat % 0x10000) 0) = true →
      s.xlateOperands k hs = .ok (u, ps) →
      (∀ e ∈ hs.zip ps, e.1.2.1 = .tile → opc ≠ 0x45 → ¬(opc = 0x41 ∧ f < 2) →
        e.1.1.anchor = u.futureAnchor c (ix 4 ((e.2.eoff - 0xC0000) / 0x3000))) →
      ∀ (tile : Nat) (anchor : Int) (x y : Word × Word) (w : Vector Word 8),
        let others := ((hs.zip ps).filter fun e => e.1.2.1 ≠ .tile).map fun e => e.2.words
        tile < 4 → (∀ e ∈ hs.zip ps, e.1.2.1 = .tile → tile = (e.2.eoff - 0xC0000) / 0x3000 ∧ anchor = e.1.1.anchor) →
        ((∀ e ∈ hs.zip ps, e.1.2.1 ≠ .tile) → tile = 0 ∧ anchor = 0) →
        x = others.getD 0 (0, 0) →
        (y = if opc = 0x42 then (hs.head?.map fun h => h.1.keyWords).getD (0, 0) else others.getD 1 (0, 0)) →
        w = sl.mxuWords k opc f ctl tile anchor x y → u.slot k = sl → sl.phase = .running →
        Goes u k (some 3) (mxuRanges w).length (decide ((u.core c).mxuIn.length < 8)) →
        (mxuOpc w, mxuF w, mxuCtl w, mxuLimit w) = (opc, f, ctl, sl.trclim.toNat) ∧
        mxuReplyTo c w = ⟨0, 3, (keySlot k).val, sl.jobcol.toNat, 0, 0, 0, 0, 0, sl.ctxid⟩ ∧
        (w[2], w[3], w[4], w[5], w[6]) = (x.1, x.2, y.1, y.2, 0) ∧ w[1].extractLsb' 32 32 = sl.step ∧
        bits w[7] 55 40 = sl.asid.toNat ∧ w[7].getLsbD 56 = decide (2 ≤ sl.cls.toNat) ∧
        ∃ t cmd, exec i s = .next t ∧ IssuedFrom u t k 2 (some 3) ∧ (t.core c).mxuIn = (u.core c).mxuIn ++ [cmd] ∧
          cmd.w = w ∧ cmd.issuer = some ⟨c, sl.ctxid, sl.pc, sl.inst⟩ ∧ Guarded t k cmd.id (mxuRanges w)) ∧
    ∀ (td : HandleNo) (g : PredNo) (u : State) (w : Vector Word 8), Ready s k [8] g 3 →
      s.readCommand k (sl.handle td) = .ok (u, w) →
      let v := sl.ownMxu k w
      let r := mxuReplyTo c v
      let bead := if r.rkind = 0 then some r.bead else none
      u.slot k = sl → sl.phase = .running → r.rkind ≠ 3 → (r.rkind = 2 → u.poolFree r.core 1 = true) →
      Goes u k bead (mxuRanges v).length (decide ((u.core c).mxuIn.length < 8)) →
      (r.slot, r.ctxid, bits v[7] 55 40, r.colour) = ((keySlot k).val, sl.ctxid, sl.asid.toNat, sl.jobcol.toNat) ∧
      (v[2], v[3], v[4], v[5], v[6]) = (w[2], w[3], w[4], w[5], w[6]) ∧
      ∃ t cmd, exec (.mpost td g) s = .next t ∧ IssuedFrom u t k 3 bead ∧
        (t.core c).mxuIn = (u.core c).mxuIn ++ [cmd] ∧ cmd.w = v ∧ Guarded t k cmd.id (mxuRanges v)

/-- R275, R276, R282: a vector instruction whose handles and shapes are acceptable puts one command into the inbox of its
core's vector unit: OPC, F, CTL, a bead reply on bead 2, the slot, the colour, the context and the translated planes
(for VCVT the key block stands in TB's place); its ranges are guarded and bead 2 is raised. Issue performs the source's
posted stores.
The model's own readings in it: log 7. -/
def Obligations.VectorInstructionsAreIssued : Prop :=
  ∀ (s : State) (k : Nat) (i : Instr) (g : PredNo) (feats : List Nat) (opc f ctl : Nat) (td ta : HandleNo)
    (tb : Option HandleNo) (u : State) (ps : List Plane),
    vectorOf i = some (g, feats, opc, f, ctl, td, ta, tb) → Ready s k feats g 2 →
    (s.slot k).cls ≠ 1 →
    let c := keyCore k
    let sl := s.slot k
    let d := sl.handle td
    let a := sl.handle ta
    let b := tb.map sl.handle
    s.missing (d :: a :: b.toList) = none →
    d.ok (opc = 0x4F ∧ f = 4) = true → (∀ h ∈ a :: b.toList, h.ok false = true) →
    vecRules opc f ctl d.virtPlane a.virtPlane ((b.getD (sl.handle 0)).virtPlane) = true →
    (opc = 0x4F → f = 4 → a.had = true → a.row0 = d.row0 ∧ a.col0 = d.col0) →
    s.xlateVector k ((d, true) :: (a :: b.toList).map fun h => (h, false)) = .ok (u, ps) →
    ∀ w : Vector Word 8,
      let y := if opc = 0x4F then keyBlock f d a
        else if b.isSome then (BitVec.ofNat 64 (ps.getD 2 (a.plane 0 0)).vec, BitVec.ofNat 64 ((ps.getD 2 (a.plane 0 0)).vec / 2 ^ 64))
        else (0, 0)
      w = sl.vecWords k opc f ctl (ps.getD 0 (d.plane 0 0)) (ps.getD 1 (a.plane 0 0)) y → u.slot k = sl → sl.phase = .running →
      Goes u k (some 2) (vecRanges w).length (decide ((u.core c).vecIn.length < 8)) →
      (vecOpc w, vecF w, vecCtl w, vecColour w) = (opc, f, ctl, sl.jobcol.toNat) ∧
      (let r := vecReplyTo c w
       (r.rkind, r.bead, r.slot, r.ctxid) = (0, 2, (keySlot k).val, sl.ctxid)) ∧
      ∃ t cmd, exec i s = .next t ∧ IssuedFrom u t k 2 (some 2) ∧ (t.core c).vecIn = (u.core c).vecIn ++ [cmd] ∧
        cmd.w = w ∧ cmd.issuer = some ⟨c, sl.ctxid, sl.pc, sl.inst⟩ ∧ Guarded t k cmd.id (vecRanges w)

/-- R314, R298: LPOST puts the packet that its handle names into the inbox of its cluster's Ladle channel CTL, with SLOT,
CTXID, COLOUR, ASID and PRIV of the issuer (F 0 replies on bead 2), enters its guards and raises its bead.
R303, R316: LSHAPE writes the 64-byte shape record of a handle and of a stream's enabled coefficients to its own
scratchpad. R312, R317: LQCTL binds a free queue with the values of its record, rings it, reads its status and unbinds
it. The model's own choices: the queue is the lowest free one, and a release (of LPOST, and of bind for its reads) performs
the source's posted stores at once.
The model's own readings in it: logs 7, 85, 93. -/
def Obligations.LadleInstructions : Prop :=
  ∀ (s : State) (k : Nat),
    let c := keyCore k
    let cl := clusterOf c
    let sl := s.slot k
    sl.phase = .running →
    (∀ (cp : Bool) (td : HandleNo) (ctl : BitVec 2) (g : PredNo) (u x : State) (w : Vector Word 8) (p : Carriage),
      let v := sl.ownPacket k cp w
      let r := ladReplyTo v
      let bead : Option (Fin 4) := if r.rkind = 0 then some 2 else none
      Ready s k [48] g 3 → sl.cls ≠ 1 → s.readCommand k (sl.handle td) = .ok (u, w) →
      (cp = false → r.rkind = 1 ∨ r.rkind = 2) →
      (u.release k).plan c (dieOf c) sl.asid sl.cls v = .ok (x, p) →
      let y := x.openPages c sl.asid p
      y.stuck = none → y.ladleWait k ctl.toNat v (guardNeeds (p.guards c sl.asid)) = none →
      (cp = true → r.rkind = 0) ∧ (r.slot, r.colour, r.ctxid) = ((keySlot k).val, sl.jobcol.toNat, sl.ctxid) ∧
      bits v[7] 55 40 = sl.asid.toNat ∧ (v[2], v[3], v[4], v[5], v[6]) = (w[2], w[3], w[4], w[5], w[6]) ∧
      ∃ t cmd, exec (if cp then .lpostCp td ctl g else .lpostPkt td ctl g) s = .next t ∧
        t.slot k = issued 3 bead ((y.release k).slot k) ∧ (∀ j, j ≠ k → t.slot j = (y.release k).slot j) ∧
        t.mem = (y.release k).mem ∧ (Unheld u k → Released u (u.release k) k) ∧ cmd.w = v ∧
        (t.chan cl ctl.toNat).inbox = (y.chan cl ctl.toNat).inbox ++ [cmd] ∧
        ∀ e ∈ p.guards c sl.asid, ∃ y ∈ (t.core e.1).guards,
          (y.space, y.lo, y.len, y.write, y.cmd) = (e.2.1, e.2.2.1, e.2.2.2.1, e.2.2.2.2, some cmd.id)) ∧
    (∀ (scale : Bool) (td ta : HandleNo) (ctl : BitVec 2) (g : PredNo) (x : Xlate),
      let d := sl.handle td
      let a := sl.handle ta
      let dims := (if scale then [] else [(BitVec.ofNat 32 a.rows, BitVec.ofNat 64 a.rstride)]) ++ sl.streamDims ctl.toNat
      let len0 := if scale then a.scaleBytes else (a.cols * elemBits a.fmt + 7) / 8
      Ready s k [48, 2] g 3 → sl.cls ≠ 1 → s.missing [a] = none → d.val = true → a.ok false = true →
      (scale = true → a.slay ≠ 0) → dims.length ≤ 4 → (∀ e ∈ dims, e.1 ≠ 0) → len0 < 2 ^ 24 →
      OwnAccess s k .store .store d.base 64 64 x → x.tt = 1 → windowCore x.pa = some c →
      ∃ t, exec (if scale then .lshapeScale td ta ctl g else .lshapeElem td ta ctl g) s = .next t ∧
        let u := walked s k x
        t.slot k = passed 4 3 (u.slot k) ∧ OthersKeep u t k ∧ t.net = u.net ∧
        (∀ i < 8, t.loadLE (x.key + 8 * i) 8 =
          ((shapeWords (if scale then a.scaleBase else a.base) len0 dims).getD i 0).toNat) ∧
        ∀ b, b < x.key ∨ x.key + 64 ≤ b → Memory.read t.mem b = Memory.read u.mem b) ∧
    ∀ (d : Dst) (a : Src), Ready s k [48] 0 2 →
      let ea := sl.read a
      let q := bits ea 5 0
      let b := s.queue cl q
      (∀ (r cb l : List Word) (u v x : State) (n : Nat),
        let cap := cb.getD 2 0
        let rd := cb.getD 1 0
        let rec2 := r.getD 2 0
        ea.toNat % 32 = 0 → (s.release k).ordinaryWords c sl.asid sl.cls ea 4 = .ok (u, r) → bindFormed r = true →
        u.ordinaryWords c sl.asid sl.cls (r.getD 0 0) 3 = .ok (v, cb) → cap ≠ 0 → cap.toNat ≤ 65536 →
        v.ordinaryWords c sl.asid sl.cls (r.getD 1 0 + BitVec.ofNat 64 (64 * (rd.toNat % cap.toNat))) 1 = .ok (x, l) →
        (2 ≤ sl.cls.toNat ∨ (rec2.getLsbD 15 = false ∧ rec2.extractLsb' 8 6 = sl.jobcol)) →
        n < 64 → (x.queue cl n).bound = false → (∀ m < n, (x.queue cl m).bound = true) →
        ((x.modQueue cl n fun _ => bindQueue r cap rd c sl.cls sl.asid).pollQueue cl n).stuck = none →
        ∃ t, exec (.lqctlBind d a) s = .next t ∧ t.slot k = passed 4 2 (wrote d (BitVec.ofNat 64 n) (x.slot k)) ∧
          (let y := t.queue cl n
           (y.bound, y.cb, y.ring, y.cap, y.chan, y.colour, y.anycol, y.asid, y.rdidx, y.fcnt, y.cause) =
             (true, r.getD 0 0, r.getD 1 0, cap.toNat, rec2.extractLsb' 0 2, rec2.extractLsb' 8 6, rec2.getLsbD 15, sl.asid,
               rd, 0, 0)) ∧
          ∀ m < 64, m ≠ n → t.queue cl m = x.queue cl m) ∧
      (b.bound = false → ∀ i, (i = .lqctlRing d a ∨ i = .lqctlStat d a ∨ i = .lqctlUnbind d a) →
        exec i s = .next (gave s k 4 2 d stNOOBJ)) ∧
      (b.bound = true → (2 ≤ sl.cls.toNat ∨ b.asid = sl.asid) →
        ((s.pollQueue cl q).stuck = none → ∃ t, exec (.lqctlRing d a) s = .next t ∧ t.slot k = passed 4 2 (wrote d 0 sl) ∧ t.mem = s.mem ∧
          (∃ ready, t.queue cl q = { b with ready := ready }) ∧ ∀ m < 64, m ≠ q → t.queue cl m = s.queue cl m) ∧
        (∃ v, exec (.lqctlStat d a) s = .next (gave s k 4 2 d v) ∧ v.getLsbD 63 = true ∧ v.getLsbD 62 = b.anycol ∧
          v.extractLsb' 56 6 = b.colour ∧ v.extractLsb' 54 2 = b.chan ∧ bits v 53 48 = q ∧
          v.extractLsb' 32 16 = b.fcnt ∧ v.extractLsb' 16 10 = b.cause ∧ v.extractLsb' 0 16 = b.pcnt) ∧
        ((∀ ch < 4, ∀ p, (s.chan cl ch).cur = some p → p.queue ≠ some q) →
          ∃ t, exec (.lqctlUnbind d a) s = .next t ∧ t.slot k = passed 4 2 (wrote d 0 sl) ∧
            (t.queue cl q).bound = false ∧ (∀ m < 64, m ≠ q → t.queue cl m = s.queue cl m) ∧ t.mem = s.mem))

/-- R339, R345, R326: a Runner instruction whose handles are acceptable puts one command into its communicator's inbox, or
KCOMM into the control inbox, of its die: OPC, F, COMM, RKIND, the slot, the colour, the context and the virtual
addresses; KPLAN, KCOMM and KPLAY.cp raise bead 2, KPLAY.flag raises none. Issue performs the source's posted stores. A KPLAY
of an idle communicator that may play it enters the buffers of its record into the die's range table at once, and any other
instruction leaves that table alone; where the record is read, no word is in error and nothing waits is a condition.
The model's own readings in it: logs 7, 91. -/
def Obligations.RunnerInstructionsAreIssued : Prop :=
  ∀ (s : State) (k : Nat) (td ta : HandleNo) (ctl : BitVec 2) (g : PredNo),
    let c := keyCore k
    let die := dieOf c
    let sl := s.slot k
    let d := sl.handle td
    let a := sl.handle ta
    Ready s k [49] g 3 → sl.cls ≠ 1 →
    ∀ (i : Instr) (opc f comm rkind align inbox : Nat) (two : Bool) (u v : State),
      ((i, opc, f, comm, rkind, align, inbox, two) = (.kplan td ta ctl g, 0x55, 0, ctl.toNat, 0, 8, ctl.toNat, true) ∨
       (i, opc, f, comm, rkind, align, inbox, two) = (.kplayCp td ctl g, 0x56, 0, ctl.toNat, 0, 64, ctl.toNat, false) ∨
       (i, opc, f, comm, rkind, align, inbox, two) = (.kplayFlag td ctl g, 0x56, 1, ctl.toNat, 1, 64, ctl.toNat, false) ∨
       (i, opc, f, comm, rkind, align, inbox, two) = (.kcommBind td ta g, 0x57, 0, 0, 0, 8, 4, true) ∨
       (i, opc, f, comm, rkind, align, inbox, two) = (.kcommFree td ctl g, 0x57, 1, ctl.toNat, 0, 8, 4, false)) →
      let hs := d :: if two then [a] else []
      let bead : Option (Fin 4) := if rkind = 0 then some 2 else none
      s.missing hs = none → (∀ h ∈ hs, h.ok false = true) → s.runTarget k d align = .ok u →
      (if two then u.runSource k a = .ok v else v = u) → v.slot k = sl → sl.phase = .running → v.stuck = none → Unheld v k →
      (∀ b, bead = some b → sl.beads[b] ≠ 63) → (v.runInbox die inbox).length < 4 →
      let x := v.comm die comm
      let plays := if opc = 0x56 ∧ x.inbox = [] ∧ x.play = none ∧ x.admits (sl.runWords k opc f comm rkind d.base 0) = true ∧
          (∀ q ∈ (v.die die).control, ¬(runF q.w = 1 ∧ runComm q.w = comm ∧ q.id < v.nextId)) then x.plan else none
      (plays ≠ none → v.calm = true) →
      ∃ t cmd, exec i s = .next t ∧ IssuedFrom v t k 3 bead ∧ t.runInbox die inbox = v.runInbox die inbox ++ [cmd] ∧
        (plays = none → (t.die die).ranges = (v.die die).ranges) ∧
        (∀ plan y commit bufs, plays = some plan →
          (((if rkind = 0 then (v.release k).modSlot k (Slot.beadUp · 2) else v.release k).bump).modComm die comm fun x =>
            { x with inbox := x.inbox ++ [cmd] }).playRecord die cmd = .ok (y, commit, bufs) →
          (t.die die).ranges = ((v.die die).ranges.filter fun r => r.comm ≠ comm) ++ playRanges comm x.asid plan.bufs bufs) ∧
        (bits cmd.w[0] 7 0, bits cmd.w[0] 10 8, bits cmd.w[0] 12 11, bits cmd.w[0] 15 14) = (opc, f, comm, rkind) ∧
        (bits cmd.w[0] 18 16, bits cmd.w[0] 24 19, bits cmd.w[0] 41 26) =
          ((keySlot k).val, sl.jobcol.toNat, sl.asid.toNat) ∧
        cmd.w[0].getLsbD 25 = decide (2 ≤ sl.cls.toNat) ∧ cmd.w[1] = sl.ctxid.setWidth 64 ∧ cmd.w[2] = d.base ∧
        cmd.w[3] = (if two then a.base else 0) ∧ cmd.issuer = some ⟨c, sl.ctxid, sl.pc, sl.inst⟩

namespace Sys2Proof.Claims

/-- From `s` to `t` exactly the guard entries of the list, each its space, start, length and whether it locks writes only or
reads too, have been entered into the table of the issuer's core, for a command of its context (R159, R384). -/
def Entered (s t : State) (k id : Nat) (l : List (GuardSpace × Nat × Nat × Bool)) : Prop :=
  ∃ gs, (t.core (keyCore k)).guards = (s.core (keyCore k)).guards ++ gs ∧
    gs.map (fun g => (g.space, g.lo, g.len, g.write)) = l ∧
    ∀ g ∈ gs, g.cmd = some id ∧ g.core = keyCore k ∧ g.ctxid = (s.slot k).ctxid

end Sys2Proof.Claims

/-- R374, R375, R384: QPOST puts a query with its 16-bit query elements into the queue of the bank set of its key page,
guards the query block for writing and both pages for reading and, with F 0, raises bead 0. R382: QAPND puts its command
into the queue of its page's bank set and raises bead 1; F 0 guards its source for reading and its page for writing, and
the other two enter no guard. R383: QSTAT sends one request to the controller, which answers
with ROWCNT of the page, or with the state of the bank set: the banks that are busy, the queries in its queue, and
whether a bank of it is held for a repair or an alert.
The model's own readings in it: log 7. -/
def Obligations.ReckonerInstructions : Prop :=
  ∀ (s : State) (k : Nat),
    let c := keyCore k
    let sl := s.slot k
    (∀ (flag : Bool) (td ta tb : HandleNo) (g : PredNo) (u1 u2 u3 u4 : State) (l : List Word) (blk : Nat) (xa xb : Xlate),
      let d := sl.handle td
      let a := sl.handle ta
      let b := sl.handle tb
      let w (i : Nat) : Word := l.getD i 0
      let j1 := bits (w 0) 63 32
      let set := setOf xa.pa
      let bead : Option (Fin 4) := if flag then none else some 0
      Ready s k [50] g 3 → sl.cls ≠ 1 → s.missing [d, a, b] = none →
      d.ok false = true → a.ok false = true → b.ok false = true → queryOk d a b = true →
      (s.release k).ordinaryWords c sl.asid sl.cls d.base (8 + (2 * a.cols + 7) / 8) = .ok (u1, l) →
      bits (w 2) 63 16 = 0 → w 5 = 0 → w 6 = 0 → w 7 = 0 → bits (w 0) 31 0 ≤ j1 →
      u1.xlateRange k .atomic 1 64 d.base (queryBlock a.cols b.cols) = .ok (u2, blk) →
      u2.ccPage k .load a.base = .ok (u3, xa) → u3.ccPage k .load b.base = .ok (u4, xb) →
      a.inPage j1 = true → b.inPage j1 = true → xa.pa / 2 ^ 21 % 2 ^ 8 = xb.pa / 2 ^ 21 % 2 ^ 8 →
      Goes u4 k bead (if a.base = b.base then 2 else 3) (decide ((u4.bankQueue set).length < 8)) →
      (u4.slot k).phase = .running →
      ∃ t y, exec (if flag then .qpostFlag td ta tb g else .qpostLd td ta tb g) s = .next t ∧
        IssuedFrom u4 t k 3 bead ∧ t.bankQueue set = u4.bankQueue set ++ [y] ∧
        Entered u4 t k y.cmd.id ((.phys, u4.winKey c blk, queryBlock a.cols b.cols, true) ::
          (.virt sl.asid, a.base.toNat, 2 ^ 21, false) ::
            if a.base = b.base then [] else [(.virt sl.asid, b.base.toNat, 2 ^ 21, false)]) ∧
        y.q = (List.range a.cols).map (fun i => (w (8 + i / 4)).extractLsb' (16 * (i % 4)) 16) ∧
        (bits y.cmd.w[0] 7 0, bits y.cmd.w[0] 10 8) = (0x59, if flag then 1 else 0) ∧ y.cmd.w[4] = w 0 ∧
        y.cmd.w[7] = w 3 ∧ (y.kleaf, y.vleaf) = (xa.leaf, xb.leaf) ∧ y.taken = false) ∧
    (∀ (f : Fin 3) (td ta : HandleNo) (g : PredNo) (u v : State) (x : Xlate) (src : Nat),
      let d := sl.handle td
      let a := sl.handle ta
      let hs := d :: if f = 2 then [] else [a]
      let set := setOf x.pa
      Ready s k [50] g 3 → sl.cls ≠ 1 → s.missing hs = none → (∀ h ∈ hs, h.ok false = true) → d.rowsOk = true →
      (f = 0 → a.fmt = fBF16 ∧ a.cols = d.cols) → s.ccPage k .store d.base = .ok (u, x) → d.inPage 0 = true →
      (if f = 0 then u.xlateRange k .load 1 64 a.base a.span = .ok (v, src) else v = u ∧ src = 0) →
      (v.slot k).phase = .running → Goes v k (some 1) (if f = 0 then 2 else 0) (decide ((v.bankQueue set).length < 8)) →
      ∃ t y, exec (match f with
          | 0 => .qapndPut td ta g
          | 1 => .qapndAdv td ta g
          | 2 => .qapndClr td g) s = .next t ∧
        IssuedFrom v t k 3 (some 1) ∧ t.bankQueue set = v.bankQueue set ++ [y] ∧
        (bits y.cmd.w[0] 7 0, bits y.cmd.w[0] 10 8) = (0x5A, f.val) ∧ y.limit = d.rows ∧ y.taken = false ∧
        y.cmd.w[4] = BitVec.ofNat 64 (if f = 2 then 0 else a.rows) ∧
        Entered v t k y.cmd.id (if f = 0 then [(.phys, v.winKey c src, a.span, false), (.virt sl.asid, d.base.toNat, 2 ^ 21, true)]
          else [])) ∧
    (∀ (unit : Bool) (d : Dst) (a : Src) (u : State) (x : Xlate),
      Ready s k [50] 0 2 → s.ccPage k .load (sl.read a) = .ok (u, x) → u.stuck = none →
      ∃ t, exec (if unit then .qstatUnit d a else .qstatRows d a) s = .next t ∧
        Asked u t k x (if unit then .unit else .rows) (.value d) 4 2) ∧
    ∀ (n : Nat) (r : Request) (d : Dst), s.stuck = none → r.cont = some (.value d) → s.performable n false = some r →
      isRegister r.key = false →
      let st := s.stack (stackOf (paOf r.key))
      let set := bankSet (paOf r.key)
      let queue := AMap.get [] st.queues set
      let holdOf (kind : HoldKind) : Bool := st.holds.any fun h => h.kind = kind && h.region / 32 = set
      let answers (v : Nat) : Prop := ∃ t, exec (.request n) s = .next t ∧ t.mem = s.mem ∧
        t.net.answers = s.net.answers ++ [r.answer (.value d) 0 v]
      (r.op = .rows → answers (AMap.get 0#32 st.rowcnt (paOf r.key / 2 ^ 21)).toNat) ∧
      (r.op = .unit → ∃ v, answers v ∧ v < 2 ^ 50 ∧
        (∀ b < 32, v.testBit b = queue.any fun q => q.taken && q.left.contains b) ∧
        v / 2 ^ 32 % 2 ^ 16 = Nat.min (queue.filter fun q => bits q.cmd.w[0] 7 0 = 0x59).length 0xFFFF ∧
        v.testBit 48 = holdOf .bank ∧ v.testBit 49 = holdOf .alert)

/-! ### System instructions -/

namespace Sys2Proof.Claims

/-- What a read of each control and status register gives (R93, R94, R100, R102, R211, R213, R216, R224, R233). -/
def csrValue (s : State) (k : Nat) : List (BitVec 12 × Word) :=
  let sl := s.slot k
  let co := s.core (keyCore k)
  let beads := sl.beads[0].toNat + sl.beads[1].toNat * 2 ^ 6 + sl.beads[2].toNat * 2 ^ 12 + sl.beads[3].toNat * 2 ^ 18
  let info := keySlot k + sl.cls.toNat * 2 ^ 4 + sl.prio.toNat * 2 ^ 6 + keyCore k * 2 ^ 36 +
    s.module.nodeY.toNat * 2 ^ 48 + s.module.nodeX.toNat * 2 ^ 56
  [(0x000#12, sl.flags.setWidth 64), (0x001, sl.trclim.setWidth 64), (0x002, sl.step.setWidth 64),
   (0x003, sl.rescmode.setWidth 64), (0x004, BitVec.ofNat 64 beads), (0x005, BitVec.ofNat 64 info),
   (0x006, BitVec.ofNat 64 s.cycle), (0x007, sl.used.setWidth 64), (0x014, sl.lcmap)] ++
  ((List.finRange 4).map fun j => (BitVec.ofNat 12 (0x010 + j.val), (sl.lb[j]).setWidth 64)) ++
  ((List.finRange 4).map fun j => (BitVec.ofNat 12 (0x018 + j.val), (sl.i[j]).signExtend 64)) ++
  ((List.finRange 8).map fun j => (BitVec.ofNat 12 (0x020 + j.val), s.module.feat[j])) ++
  ((List.finRange 16).map fun j => (BitVec.ofNat 12 (0x030 + j.val), (sl.c[j]).signExtend 64)) ++
  [(0x040, sl.fcause), (0x041, sl.fpc.setWidth 64), (0x042, sl.finst.setWidth 64), (0x043, sl.faddr), (0x044, sl.feng),
   (0x045, sl.emu), (0x046, sl.epc.setWidth 64), (0x047, sl.einst.setWidth 64), (0x800, sl.asid.setWidth 64),
   (0x801, sl.ctxid.setWidth 64), (0x802, sl.jobcol.setWidth 64), (0x803, sl.budget.setWidth 64), (0x804, sl.priv),
   (0xC00, co.cpol.setWidth 64), (0xC01, co.trapdst.setWidth 64), (0xC02, co.astab)]

/-- What a write of a value to a register of the slot leaves in it (R4, R93, R94, R211, R224). -/
def csrPut (v : Word) : List (BitVec 12 × (Slot → Slot)) :=
  ([0x004, 0x005, 0x006, 0x007, 0x041, 0x042, 0x043, 0x045].map fun n => (n, fun sl => sl)) ++
  ((List.range 8).map fun j => (BitVec.ofNat 12 (0x020 + j), fun sl => sl)) ++
  ((List.finRange 4).map fun j => (BitVec.ofNat 12 (0x010 + j.val), fun sl => { sl with lb := sl.lb.set j (v.setWidth 32) })) ++
  ((List.finRange 4).map fun j => (BitVec.ofNat 12 (0x018 + j.val), fun sl => { sl with i := sl.i.set j (v.setWidth 32) })) ++
  ((List.finRange 16).map fun j => (BitVec.ofNat 12 (0x030 + j.val), fun sl => { sl with c := sl.c.set j (v.setWidth 32) })) ++
  [(0x000, fun sl => { sl with flags := sl.flags &&& v.setWidth 7 }), (0x001, fun sl => { sl with trclim := v.setWidth 16 }),
   (0x002, fun sl => { sl with step := v.setWidth 32 }), (0x003, fun sl => { sl with rescmode := v.setWidth 1 }),
   (0x014, fun sl => { sl with lcmap := v &&& 0xBBBBBBBBBBBBBBBB#64 }),
   (0x040, fun sl => { sl with fcause := (sl.fcause &&& 0x7FFFFFFFFFFFFFFF#64) ||| (v &&& 0x8000000000000000#64) }),
   (0x044, fun sl => { sl with feng := (sl.feng &&& ~~~0xFF000000#64) ||| (v &&& 0xFF000000#64) }),
   (0x046, fun sl => { sl with epc := v.setWidth 52 }), (0x047, fun sl => { sl with einst := v.setWidth 32 }),
   (0x800, fun sl => { sl with asid := v.setWidth 16 }), (0x802, fun sl => { sl with jobcol := v.setWidth 6 }),
   (0x803, fun sl => { sl with budget := v.setWidth 32 }), (0x804, fun sl => { sl with priv := v &&& 0x3F3F#64 })]

/-- The writes without a destination, each with the value that it writes over an old one (R229). -/
noncomputable def csrWrites (u : Src) (n : BitVec 12) (old x : Word) : List (Instr × Word) :=
  [(.csrWr u n, x), (.csrSet u n, old ||| x), (.csrClr u n, old &&& ~~~x)]

end Sys2Proof.Claims

/-- R92 to R94, R229: CSR.rd gives the value of the register; CSR.wr, .set, .clr and .swp write the value of D, its OR, the
old value without D's bits, and D's value with the old value to D. Numbers from 0x800 on are written, and from 0xC00 on
touched, only from class 2: below it the access traps with 0x020, which freezes the actor. A write of CTXID renames the
context.
The model's own readings in it: logs 7, 67, 89. -/
def Obligations.ControlRegisters : Prop :=
  ∀ (s : State) (k : Nat) (n : BitVec 12), Ready s k [0] 0 1 →
    let sl := s.slot k
    (∀ (d : Dst) (v : Word), (n, v) ∈ csrValue s k → (0xC00 ≤ n.toNat → 2 ≤ sl.cls.toNat) →
      exec (.csrRd d n) s = .next (gave s k 4 1 d v)) ∧
    (∀ (u : Src) (old : Word), (n, old) ∈ csrValue s k → (0x800 ≤ n.toNat → 2 ≤ sl.cls.toNat) →
      (∀ e ∈ csrWrites u n old (sl.read u),
        let x := e.2
        let put (f : Core → Core) : State := (s.modCore (keyCore k) f).setSlot k (passed 4 1 sl)
        (∀ f, (n, f) ∈ csrPut x → exec e.1 s = .next (s.setSlot k (passed 4 1 (f sl)))) ∧
        (n = 0xC00 → exec e.1 s = .next (put fun c => { c with cpol := x.setWidth 24 })) ∧
        (n = 0xC01 → exec e.1 s = .next (put fun c => { c with trapdst := x.setWidth 22 })) ∧
        (n = 0xC02 → exec e.1 s = .next (put fun c => { c with astab := x &&& 0xFFFFFFFF0000#64 })) ∧
        (n = 0x801 → (s.ctx (keyCore k) (x.setWidth 32)).isSome = true → exec e.1 s = .next (s.setSlot k (passed 4 1 sl))) ∧
        (n = 0x801 → sl.phase = .running → Unheld s k → s.ctx (keyCore k) (x.setWidth 32) = none →
          ∃ t, exec e.1 s = .next t ∧ t.slot k = passed 4 1 { sl with ctxid := x.setWidth 32 } ∧
            ∀ y ∈ (s.core (keyCore k)).ctxs, y.id = sl.ctxid → { y with id := x.setWidth 32 } ∈ (t.core (keyCore k)).ctxs)) ∧
      ∀ (d : Dst) (f : Slot → Slot), (n, f) ∈ csrPut (sl.read (dstSrc d)) →
        exec (.csrSwp d n) s = .next (s.setSlot k (passed 4 1 (wrote d old (f sl))))) ∧
    (∀ (d : Dst) (u : Src), sl.status = .live → sl.cls.toNat < 2 → Unheld s k →
      (0xC00 ≤ n.toNat → ∃ t, exec (.csrRd d n) s = .next t ∧ Denied s t k) ∧
      (0x800 ≤ n.toNat → ∀ i, (i = .csrWr u n ∨ i = .csrSet u n ∨ i = .csrClr u n ∨ i = .csrSwp d n) →
        ∃ t, exec i s = .next t ∧ Denied s t k))

/-- R221, R223, R230: SYS.commit marks the launch of the actor as committed, SYS.eret returns from an emulation routine to
the address after the emulated instruction with EMU.ACT clear (R218) and traps with 0x011 outside one, and SYS.ckpt records
a restart address and counts the epoch of a streaming colour. Commit, and a checkpoint that is made, release.
The model's own readings in it: logs 7, 32. -/
def Obligations.SystemCalls : Prop :=
  ∀ (s : State) (k : Nat) (d : Dst), Ready s k [0] 0 2 →
    let sl := s.slot k
    sl.phase = .running →
    (Unheld s k → sl.launch = none →
      ∃ t, exec (.sysCommit d) s = .next t ∧ t.slot k = passed 4 2 (wrote d stNOOBJ sl) ∧ Released s t k) ∧
    (∀ m l, Unheld s k → sl.launch = some m → s.launchOf m.die m.id = some l →
      ∃ t x, exec (.sysCommit d) s = .next t ∧ t.slot k = passed 4 2 (wrote d 0 sl) ∧ Released s t k ∧
        t.launchOf m.die m.id = some x ∧ x = { l with committed := true }) ∧
    (sl.emu.getLsbD 0 = true → exec .sysEret s = .next (s.setSlot k (jumped 2
      ((sl.epc + if sl.einst.getLsbD 0 then 4 else 2) &&& ~~~1#52) { sl with emu := sl.emu &&& ~~~1#64 }))) ∧
    (sl.emu.getLsbD 0 = false → TrapsHigh s k → ∃ t, exec .sysEret s = .next t ∧ Trapped s t k 0x011 0) ∧
    (let a := sl.read (dstSrc d)
     a.toNat % 64 = 0 →
      ((s.colour sl.jobcol).strm = false → exec (.sysCkpt d) s = .next (gave s k 4 2 d stDENIED)) ∧
      ((s.colour sl.jobcol).strm = true → Unheld s k → ∃ t, exec (.sysCkpt d) s = .next t ∧
        t.slot k = passed 4 2 (wrote d 0 sl) ∧ Released s t k ∧ (t.colour sl.jobcol).restart.toNat = a.toNat % 2 ^ 52 ∧
        (t.colour sl.jobcol).ckasid = sl.asid ∧ (t.colour sl.jobcol).epoch = (s.colour sl.jobcol).epoch + 1 ∧
        ∀ c, c ≠ sl.jobcol → t.colour c = s.colour c))

/-- R139, R231: TLBI removes every matching entry from the TLB of every core; it completes with 0 where no access, command,
message or post on its way was translated through one, and otherwise waits for those; when they have been performed, and
not before, the wait gets its result 0, which the instruction then gives. It performs the posted stores of its source at
once. Whether the running packets complete through their translations or walk again is free.
The model's own readings in it: logs 7, 42, 49. -/
def Obligations.TranslationInvalidation : Prop :=
  ∀ (s : State),
    (∀ (k : Nat) (d : Dst) (a v : Src), Ready s k [0] 0 4 →
      let sl := s.slot k
      2 ≤ sl.cls.toNat → sl.phase = .running →
      ∀ (i : Instr) (asid : Option (BitVec 16)) (lo hi : Nat),
        ((i, asid, lo, hi) = (.tlbiAll d, none, 0, 2 ^ 52) ∨
         (i, asid, lo, hi) = (.tlbiAsid d v, some ((sl.read v).setWidth 16), 0, 2 ^ 52) ∨
         ((i, asid, lo, hi) = (.tlbiRange d a v, some ((sl.read v).setWidth 16), (sl.read a).toNat / 2 ^ 16 % 2 ^ 36 * 2 ^ 16,
            ((sl.read a).toNat / 2 ^ 16 % 2 ^ 36 + (sl.read v).toNat / 2 ^ 16 % 2 ^ 32) * 2 ^ 16) ∧
          (sl.read v).toNat / 2 ^ 16 % 2 ^ 32 ≠ 0)) →
        let gone (e : TlbEntry) : Prop :=
          (∀ x, asid = some x → e.asid = x) ∧ e.page * 2 ^ e.bits < hi ∧ lo < (e.page + 1) * 2 ^ e.bits
        let u := (s.release k).rewalk ⟨asid, lo, hi⟩
        let users := (u.net.reqs.filter (Purge.covers ⟨asid, lo, hi⟩ u)).map (fun r => (r.id, 0)) ++
          (u.translated.filter fun e => Purge.holds ⟨asid, lo, hi⟩ u e.2).map Prod.fst ++
          (u.postsThrough ⟨asid, lo, hi⟩).map fun n => (n, 0)
        s.supOf k = none → Unheld s k →
        ∃ t, exec i s = .next t ∧ Released s t k ∧
          (∀ c e, e ∈ (t.core c).tlb ↔ e ∈ (s.core c).tlb ∧ ¬gone e) ∧
          (users = [] → t.slot k = passed 4 4 (wrote d 0 sl)) ∧
          (users ≠ [] → (t.slot k).phase = .blocked (.supervisor s.nextId) ∧
            t.net.sups = s.net.sups ++ [⟨s.nextId, keyCore k, sl.ctxid, .tlbi users, none⟩])) ∧
    (∀ (k : Nat) (d : Dst) (a v : Src) (x : Sup) (w : Word), Ready s k [0] 0 4 → 2 ≤ (s.slot k).cls.toNat →
      s.supOf k = some x → x.result = some w →
      ∀ i, (i = .tlbiAll d ∨ i = .tlbiAsid d v ∨ i = .tlbiRange d a v ∨ i = .ctxEvict d a v ∨ i = .ctxPreempt d a) →
        exec i s = .next (gave (s.dropSup k) k 4 4 d w)) ∧
    ∀ (n id core : Nat) (ctxid : BitVec 32) (users : List (Nat × Nat)),
      s.net.sups[n]? = some ⟨id, core, ctxid, .tlbi users, none⟩ → (s.ctx core ctxid).isSome = true →
      (∀ u ∈ s.net.sups, u.id = id → u.core = core ∧ u.ctxid = ctxid) →
      let out := (∃ r ∈ s.net.reqs, (r.id, 0) ∈ users) ∨ (∃ c ∈ s.translated, c.1 ∈ users) ∨
        ∃ e ∈ s.net.vias, ∃ n ∈ users, e.2.id = n.1
      (out → exec (.tlbiDrained n) s = .next s) ∧
      (¬out → ∃ t, exec (.tlbiDrained n) s = .next t ∧ t.mem = s.mem ∧
        t.net.sups[n]? = some ⟨id, core, ctxid, .tlbi users, some 0⟩)

namespace Sys2Proof.Claims

/-- What R225 saves of the actor of slot `k`, by offset, but for the ring, the held messages and the private region: how a wait and
a guard entry stand in their images is the model's (log 26). -/
def savedTable (s : State) (k : Nat) : List (Nat × List Word) :=
  let sl := s.slot k
  let n (x : Nat) : Word := BitVec.ofNat 64 x
  let quad (x : BitVec 256) : List Word := (List.range 4).map fun j => x.extractLsb' (64 * j) 64
  let pair (l : List (BitVec 32)) (j : Nat) : Word := l.getD (2 * j + 1) 0 ++ l.getD (2 * j) 0
  [(0x000, [n (0x01564153 + 2 ^ 32 * (decide (sl.phase ≠ .idle)).toNat + 2 ^ 33 * sl.frozen.toNat +
      2 ^ 34 * sl.phase.isBlocked.toNat + 2 ^ 40 * sl.cls.toNat + 2 ^ 48 * sl.asid.toNat), sl.desc, sl.gen,
      n (sl.ctxid.toNat + 2 ^ 32 * sl.jobcol.toNat + 2 ^ 40 * sl.granted)]),
   (0x038, [sl.priv]),
   (0x040, [sl.pc.setWidth 64, sl.used.setWidth 64, sl.budget.setWidth 64, sl.flags.setWidth 64, sl.trclim.setWidth 64,
     sl.step.setWidth 64, sl.rescmode.setWidth 64, sl.lcmap]),
   (0x080, [n (sl.beads[0].toNat + 2 ^ 6 * sl.beads[1].toNat + 2 ^ 12 * sl.beads[2].toNat + 2 ^ 18 * sl.beads[3].toNat),
     n (((List.range 8).map fun j => (sl.pred (BitVec.ofNat 3 j)).toNat * 2 ^ j).sum),
     pair sl.lb.toList 0, pair sl.lb.toList 1, pair sl.i.toList 0, pair sl.i.toList 1, 0, 0]),
   (0x0C0, (List.range 8).map (pair sl.c.toList)), (0x100, sl.s.toList.set 0 0), (0x300, sl.q.toList),
   (0x340, sl.l :: sl.a.toList ++ [0]), (0x380, [sl.hdr0, sl.hdr1]),
   (0x390, [sl.fcause, sl.fpc.setWidth 64, sl.finst.setWidth 64, sl.faddr, sl.feng, sl.emu, sl.epc.setWidth 64,
     sl.einst.setWidth 64]),
   (0x3D0, s.waitImage sl),
   (0x400, (List.finRange 4).flatMap fun j => quad sl.mb[j].mask ++ [sl.mb[j].stat, sl.mb[j].arrivals]),
   (0x4C0, sl.resvImage), (0x500, (List.range 16).flatMap fun j => s.guardImage (keyCore k) sl.ctxid j),
   (0x600, sl.t.toList.flatMap quad), (0x2A00, sl.pw.toList.flatMap fun e => [e.1, e.2])]

end Sys2Proof.Claims

/-- R217, R224 to R226, R232: CTX.evict asks for its target's save and waits; the save stores the actor's state at the
offsets of R225, empties the slot and marks the context as saved. CTX.restore makes the actor of a save area live in a
slot; CTX.resume lets a frozen actor go on, past its instruction with A.SKIP; CTX.freeze holds an actor; CTX.destroy
removes one, evicted or not. Where an access of such a step is held, the step waits whole: the clauses take none to be.
The model's own readings in it: logs 7, 9, 26, 32, 41, 46, 95. -/
def Obligations.ContextOperations : Prop :=
  ∀ (s : State),
    (∀ (k : Nat) (d : Dst) (a v : Src), Ready s k [0] 0 4 →
      let sl := s.slot k
      let x := sl.read a
      let area := sl.read v
      let tgt := slotKey (x.toNat % 4096) (x.toNat / 4096 % 8)
      let o := s.slot tgt
      2 ≤ sl.cls.toNat → sl.phase = .running → sl.status = .live →
      (o.status ≠ .live → s.supOf k = none →
        ∀ i, (i = .ctxEvict d a v ∨ i = .ctxFreeze d a ∨ i = .ctxResume d a v) → exec i s = .next (gave s k 4 4 d stNOOBJ)) ∧
      (s.supOf k = none → o.status = .live → o.cls ≠ 3 → o.priv.toNat % 2 ^ 6 + o.priv.toNat / 2 ^ 8 % 2 ^ 6 ≤ 64 →
        (s.core (keyCore tgt)).ctxs.length < 64 → s.areaFault k area (areaSize o.priv) .store .store = none → Unheld s k →
        ∃ t, exec (.ctxEvict d a v) s = .next t ∧ (t.slot k).phase = .blocked (.supervisor s.nextId) ∧
          t.net.sups = s.net.sups ++
            [⟨s.nextId, keyCore k, sl.ctxid, .evict (keyCore tgt) (keySlot tgt) area sl.asid, none⟩] ∧ Released s t k) ∧
      (o.status = .live → tgt ≠ k →
        (o.frozen = true → (sl.read v).getLsbD 0 = false →
          ∃ t, exec (.ctxResume d a v) s = .next t ∧ t.slot k = passed 4 4 (wrote d 0 sl) ∧
            t.slot tgt = { o with frozen := false, since := s.cycle, aged := 0 }) ∧
        (o.frozen = true → (sl.read v).getLsbD 0 = true → o.phase ≠ .idle →
          ∃ t, exec (.ctxResume d a v) s = .next t ∧ t.slot k = passed 4 4 (wrote d 0 sl) ∧ (t.slot tgt).frozen = false ∧
            (t.slot tgt).phase = .ready ∧ (t.slot tgt).pc = o.pc + BitVec.ofNat 52 (s.skipLength tgt)) ∧
        (∃ t, exec (.ctxFreeze d a) s = .next t ∧ t.slot k = passed 4 4 (wrote d 0 sl) ∧ (t.slot tgt).frozen = true ∧
          (t.slot tgt).phase ≠ .running ∧ (t.slot tgt).pc = o.pc) ∧
        (x.getLsbD 15 = false → (s.removeActor tgt (some 0x212)).stuck = none →
          ∃ t, exec (.ctxDestroy d a v) s = .next t ∧ (t.slot tgt).status ≠ .live ∧
          (t.slot k).l = 0 ∧ (t.slot k).pc = sl.pc + 4)) ∧
      (x.getLsbD 15 = true → s.savedCtx area sl.asid = none → exec (.ctxDestroy d a v) s = .next (gave s k 4 4 d stNOOBJ)) ∧
      (∀ c y, x.getLsbD 15 = true → s.savedCtx area sl.asid = some (c, y) →
        (s.removeEvicted c y (some 0x212)).stuck = none →
        ∃ t, exec (.ctxDestroy d a v) s = .next t ∧ (t.slot k).l = 0 ∧ (t.slot k).pc = sl.pc + 4 ∧
          ∀ e ∈ (t.core c).ctxs, e.id = y.id → e.loc ≠ .saved area sl.asid) ∧
      let u := s.release k
      let c := x.toNat % 4096
      let u₁ := u.areaOpen c area sl.asid 0x2A80
      let size := areaSize (u₁.areaWord c area sl.asid 0x038)
      let u₂ := u₁.areaOpen c area sl.asid size
      (∀ n y, u.areaFault k area 0x2A80 .load .load = none → u₁.areaPoison c area sl.asid 0 (0x2A80 / 8) = none →
        u₁.areaFault k area size .load .load = none → u₂.restoreCheck c area sl.asid = .ok (n, y) → slotKey c n ≠ k →
        (u₂.restore c n area sl.asid y).stuck = none →
        (u₂.copyPriv c area sl.asid (u₂.areaSlot c area sl.asid y).priv false).awayRing c y area sl.asid = [] →
        ∃ t, exec (.ctxRestore d a v) s = .next t ∧ (t.slot k).l = BitVec.ofNat 64 n ∧ (t.slot k).pc = sl.pc + 4 ∧
          (t.slot (slotKey c n)).status = .live ∧ (t.slot (slotKey c n)).ctxid = y.id ∧
          (t.slot (slotKey c n)).pc = (u₂.areaWord c area sl.asid 0x040).setWidth 52 &&& ~~~1#52)) ∧
    ∀ (n id core : Nat) (ctxid : BitVec 32) (c : Nat) (slot : Fin 8) (area : Word) (asid : BitVec 16),
      let k := slotKey c slot.val
      let u := (s.release k).yieldCore k
      let sl := u.slot k
      let held := sl.heldAll.map Held.msg
      let image := (savedTable u k).foldl (fun (w : State) e => w.areaWords c area asid e.1 e.2) u
      let image := image.areaStore c area asid 0x034 4 held.length
      let image := if (area, asid) ∈ sl.rings then image
        else (image.areaStore c area asid 0x02C 4 0).areaStore c area asid 0x030 4 0
      let image := image.areaWords c area asid 0xA00 (held.flatMap Msg.words)
      s.net.sups[n]? = some ⟨id, core, ctxid, .evict c slot area asid, none⟩ → (s.slot k).status = .live →
      s.settled k = true → (s.evict k area asid).stuck = none →
      ∃ t, exec (.evictComplete n) s = .next t ∧ (t.slot k).status = .empty ∧
        t.mem = (image.copyPriv c area asid sl.priv true).mem ∧
        ∀ e ∈ (t.core c).ctxs, e.id = (s.slot k).ctxid → e.loc = .saved area asid ∧ e.rings = sl.rings

/-- R222, R202: CTX.preempt of a colour without a committed launch marks the colour as being pre-empted, removes its actors in
the set, the evicted ones among them, and waits, unless the issuer is one of them; when nothing of the colour is in flight there the mark goes and the number
of removed actors is the result.
The model's own readings in it: log 54. -/
def Obligations.PreemptionRemovesAColour : Prop :=
  ∀ (s : State),
    (∀ (k : Nat) (d : Dst) (a : Src), Ready s k [0] 0 4 →
      let sl := s.slot k
      let x := sl.read a
      let colour := x.setWidth 6
      let scope := x.toNat / 2 ^ 8 % 8
      let anchor := x.toNat / 2 ^ 12 % 4096
      2 ≤ sl.cls.toNat → s.supOf k = none →
      ((scope < 3 ∨ 5 < scope) → exec (.ctxPreempt d a) s = .next (gave s k 4 4 d stBADREC)) ∧
      (3 ≤ scope → scope ≤ 5 → ((s.colour colour).preempting = true ∨
          ((s.colour colour).strm = false ∧ s.committedIn scope anchor colour = true)) →
        exec (.ctxPreempt d a) s = .next (gave s k 4 4 d stBUSY)) ∧
      (3 ≤ scope → scope ≤ 5 → (s.colour colour).preempting = false →
        ((s.colour colour).strm = true ∨ s.committedIn scope anchor colour = false) →
        (s.preempt scope anchor colour).stuck = none →
        ∃ t, exec (.ctxPreempt d a) s = .next t ∧ (t.colour colour).preempting = true ∧
          (∀ j ∈ s.victims scope anchor colour, (t.slot j).status ≠ .live) ∧
          (k ∉ s.victims scope anchor colour → (t.slot k).pc = sl.pc ∧
            (∃ id, (t.slot k).phase = .blocked (.supervisor id)) ∧
            ∃ op again reqs, t.supOf k = some op ∧ op.result = none ∧ op.op = .preempt scope anchor colour
              ((s.victims scope anchor colour).length + (s.victimsAway scope anchor colour).length) again reqs))) ∧
    ∀ (n id core anchor : Nat) (ctxid : BitVec 32) (scope count : Nat) (colour : BitVec 6) (again : List (Nat × Launch))
      (reqs : List Nat),
      s.net.sups[n]? = some ⟨id, core, ctxid, .preempt scope anchor colour count again reqs, none⟩ →
      (∀ u ∈ s.net.sups, u.id = id → u.core = core ∧ u.ctxid = ctxid) →
      (s.ctx core ctxid).isSome = true → s.restarts colour count = false → s.drainedOf scope anchor colour reqs = true → s.stuck = none →
      ∃ t, exec (.inFlightDrain n) s = .next t ∧ (t.colour colour).preempting = false ∧
        t.net.sups[n]? = some ⟨id, core, ctxid, .preempt scope anchor colour count again reqs, some (BitVec.ofNat 64 count)⟩

/-! ### Events: messages and scheduling -/

namespace Sys2Proof.Claims

/-- Flight `n` is due, and no earlier message of its sender to the same mailbox and channel is on its way (R176). -/
structure Arrives (s : State) (n : Nat) (f : Flight) : Prop where
  here    : s.net.flights[n]? = some f
  due     : f.due = none
  inOrder : ∀ g ∈ s.net.flights.take n,
    ¬(g.core = f.core ∧ g.dst = f.dst ∧ g.msg.mb = f.msg.mb ∧ g.msg.vc = f.msg.vc)

/-- The vector entry of a message's type at its target core (R173). -/
def vectorEntry (s : State) (f : Flight) : Word := (s.core f.dst).vect[ix 256 f.msg.type]

/-- The entry is valid and not evicted, and names a live slot of its class whose mailbox takes the type (R174). -/
structure Receives (s : State) (f : Flight) (k : Nat) : Prop where
  core  : f.dst < 4096
  valid : (vectorEntry s f).getLsbD 63 = true
  here  : (vectorEntry s f).getLsbD 55 = false
  slot  : k = slotKey f.dst ((vectorEntry s f).toNat / 2 ^ 60 % 8)
  live  : (s.slot k).status = .live
  cls   : (s.slot k).cls.toNat = (vectorEntry s f).toNat / 2 ^ 58 % 4
  conf  : ((s.slot k).mb[f.msg.mb]).conf = true
  mask  : ((s.slot k).mb[f.msg.mb]).mask.getLsbD f.msg.type = true

/-- Messages of a mailbox that count against its quota. -/
def quotaUsed (m : Mailbox) : Nat := (m.held.filter fun h => h.entry = .quota).length

/-- The rows of R174 that accept a message, with the pool entry that it takes. -/
def Accepts (s : State) (f : Flight) (k : Nat) : Entry → Prop
  | .claimed => f.claimed = true
  | .reserved tag => f.claimed = false ∧ f.msg.vc = true ∧ f.msg.rtag = tag ∧ tag ∈ (s.slot k).resv ∧
      ∀ b : Fin 4, ∀ h ∈ ((s.slot k).mb[b]).held, h.entry ≠ .reserved tag
  | .quota => f.claimed = false ∧ f.msg.vc = false ∧
      (let m := (s.slot k).mb[f.msg.mb]
       quotaUsed m < m.quota.toNat ∧
       if m.ord then (f.msg.key - m.nextKey).toNat < 16 ∧ (∀ h ∈ m.held, h.entry = .quota → h.msg.key ≠ f.msg.key) ∧
         ((s.slot k).keyed = some f.msg.mb → f.msg.key ≠ m.nextKey)
       else ∀ e ∈ (s.slot k).rings, ∀ r ∈ s.ringMsgs f.dst e.1 e.2, r.mb ≠ f.msg.mb)

/-- The rows of R174 that discard a message. -/
def Discards (s : State) (f : Flight) : Prop :=
  let e := vectorEntry s f
  let sl := s.slot (slotKey f.dst (e.toNat / 2 ^ 60 % 8))
  let m := sl.mb[f.msg.mb]
  4096 ≤ f.dst ∨ e.getLsbD 63 = false ∨
  (e.getLsbD 55 = false ∧ (sl.status ≠ .live ∨ sl.cls.toNat ≠ e.toNat / 2 ^ 58 % 4 ∨ m.conf = false ∨
    m.mask.getLsbD f.msg.type = false ∨
    (f.claimed = false ∧ f.msg.vc = true ∧
      (f.msg.rtag ∉ sl.resv ∨ ∃ b : Fin 4, ∃ h ∈ (sl.mb[b]).held, h.entry = .reserved f.msg.rtag))))

/-- The entry is that of an evicted actor, whose ring is that of a save area (R173, R226). -/
structure Overflows (s : State) (f : Flight) (area : Word) (asid : BitVec 16) : Prop where
  core  : f.dst < 4096
  valid : (vectorEntry s f).getLsbD 63 = true
  away  : (vectorEntry s f).getLsbD 55 = true
  actor : s.evicted f.dst f.msg.type = some (area, asid)

/-- The rows of R174 that refuse a message: a full ring, a key too far ahead or taken, and a full mailbox; and what stands in
a ring for an unordered mailbox (R226). -/
def Refuses (s : State) (f : Flight) : Prop :=
  (∃ area asid, Overflows s f area asid ∧ s.ringRoom f.dst area asid = false) ∨
  ∃ k, Receives s f k ∧ f.claimed = false ∧ f.msg.vc = false ∧
    let m := (s.slot k).mb[f.msg.mb]
    if m.ord then
      let d := (f.msg.key - m.nextKey).toNat
      d < 2 ^ 31 ∧ (16 ≤ d ∨ m.quota.toNat ≤ quotaUsed m ∨ (∃ h ∈ m.held, h.entry = .quota ∧ h.msg.key = f.msg.key) ∨
        ((s.slot k).keyed = some f.msg.mb ∧ d = 0))
    else m.quota.toNat ≤ quotaUsed m ∨ ∃ e ∈ (s.slot k).rings, ∃ r ∈ s.ringMsgs f.dst e.1 e.2, r.mb = f.msg.mb

/-- An ordered mailbox has passed the key of a message (R174). -/
def Passed (s : State) (f : Flight) (k : Nat) : Prop :=
  Receives s f k ∧ f.claimed = false ∧ f.msg.vc = false ∧
    let m := (s.slot k).mb[f.msg.mb]
    m.ord = true ∧ 2 ^ 31 ≤ (f.msg.key - m.nextKey).toNat

/-- The report of a message goes to no activation that waits for it, and to no save area. -/
def ToldInSlot (s : State) (f : Flight) : Prop :=
  (∀ id, f.report ≠ .post id) ∧ ∀ x, s.ctx f.core f.ctxid = some x → ∀ area asid, x.loc ≠ .saved area asid

/-- The report goes to a storing instruction that waits, or to no save area. -/
def ToldHere (s : State) (f : Flight) : Prop := (∃ id, f.report = .post id) ∨ ToldInSlot s f

/-- From `s` to `t` the sender of a message has been told its fate, with 0 for acceptance (R188): bead ST has gone down and
a failure stands in FENG, or its status word has been written, or the storing instruction whose post has been accepted has
completed, its buffer empty (R145). -/
def Reported (s t : State) (f : Flight) (cause tries : Nat) : Prop :=
  (f.report = .bead → ∀ (m : Fin 8) x, s.ctx f.core f.ctxid = some x → x.loc = .slot m →
    let a := s.slot (slotKey f.core m.val)
    let b := t.slot (slotKey f.core m.val)
    a.status = .live → b.beads = a.beads.set 1 (if a.beads[1] = 0 then 0 else a.beads[1] - 1) ∧
      b.feng = if cause = 0 then a.feng else
        BitVec.ofNat 64 (Nat.min (a.feng.toNat / 2 ^ 24 % 2 ^ 8 + 1) 255 * 2 ^ 24 + 6 * 2 ^ 20 + cause)) ∧
  (∀ off, f.report = .status off → t.loadLE (s.winKey f.core off) 8 = cause + tries * 2 ^ 10) ∧
  ∀ id j va len cost, f.report = .post id → cause = 0 → s.postWaiter id = some (j, va, len, cost) →
    let a := s.slot j
    let b := t.slot j
    (b.phase, b.pc, b.used, b.since) = (.ready, a.pc + BitVec.ofNat 52 len, a.used + BitVec.ofNat 32 cost, s.cycle) ∧
      b.postLine = none ∧ b.postBuf = .replicate 8 0

/-- From `s` to `t` the storing instruction whose post has failed has trapped precisely, from the state `u` that the message
has left: its activation, of class 2 or 3, ends, and its post buffer stays as it was (R6, R145). -/
def PostTraps (s u t : State) (f : Flight) (cause : Nat) : Prop :=
  ∀ id k va len cost, f.report = .post id → s.postWaiter id = some (k, va, len, cost) → TrapsHigh s k →
    ((s.slot k).budget = 0 ∨ (s.slot k).used.toNat + 1 ≤ (s.slot k).budget.toNat) →
    Recorded (s.slot k) (t.slot k) cause 0 0 va ∧ ToldTrap u t k cause 0 false va ∧ SameRegs (s.slot k) (t.slot k) ∧
      (t.slot k).phase = .idle ∧ ((t.slot k).postLine, (t.slot k).postBuf) = ((s.slot k).postLine, (s.slot k).postBuf)

/-- The storing instruction that a message came from, if any, is that of a live actor of class 2 or 3 with budget for a
trap, and none of its posted stores is held. -/
def PostHigh (s : State) (f : Flight) : Prop :=
  ∃ id k va len cost, f.report = .post id ∧ s.postWaiter id = some (k, va, len, cost) ∧ TrapsHigh s k ∧
    ((s.slot k).budget = 0 ∨ (s.slot k).used.toNat + 1 ≤ (s.slot k).budget.toNat)

end Sys2Proof.Claims

/-- R145, R174, R176 to R178, R188, R214, R226: a message that arrives has the fate that the first row of R174 gives it, and
has left the network unless it is refused. One that is accepted stands last in its mailbox with the entry that it takes and
the cycle of its arrival; one for an evicted actor is appended to its ring; one that no valid entry, live slot of its class,
mailbox, mask or reservation takes is discarded; one whose key an ordered mailbox has passed is discarded and recorded as
0x201 in the slot; one for which there is no room is refused and tried again after its backoff, until 1,024 attempts or 1 ms;
a backoff that has passed makes it due. The sender is told: acceptance, 0x203 of a discard or 0x202 of the last refusal lower
bead ST and a failure writes FENG, or the status word takes the cause and the refusals; a word-7 store completes and is
ready, or traps with the cause and keeps its buffer (R6). After its 1 µs an activation that LANE or CORE retries is ready.
The model's own readings in it: logs 13, 23. -/
def Obligations.MessagesAreDelivered : Prop :=
  ∀ (s : State) (n : Nat),
    (∀ (f : Flight), Arrives s n f → s.stuck = none → f.tries < 1024 →
      let u := s.modNet fun q => { q with flights := q.flights.eraseIdx n }
      let gone (t : State) : Prop := t.net.flights = u.net.flights
      let sameBoxes (t : State) : Prop := ∀ j, (t.slot j).mb = (s.slot j).mb
      (∀ (k : Nat) (e : Entry), Receives s f k → Accepts s f k e → ToldHere s f →
        ∃ t, exec (.delivery n) s = .next t ∧ gone t ∧ Reported s t f 0 f.tries ∧
          ((t.slot k).mb[f.msg.mb]).held = ((s.slot k).mb[f.msg.mb]).held ++ [⟨f.msg, s.cycle, e⟩] ∧
          ((t.slot k).mb[f.msg.mb]).arrivals = ((s.slot k).mb[f.msg.mb]).arrivals + 1 ∧
          ∀ b : Fin 4, b ≠ f.msg.mb → (t.slot k).mb[b] = (s.slot k).mb[b]) ∧
      (∀ area asid key tail, Overflows s f area asid → s.ringRoom f.dst area asid = true → ToldHere s f →
        (∀ off, f.report ≠ .status off) → (u.ringAppend f.dst area asid f.msg).stuck = none →
        let last := s.areaLoad f.dst area asid 0x030 4
        let ring := BitVec.ofNat 64 (s.areaLoad f.dst area asid 0x020 8)
        s.placeOf f.dst asid (ring + BitVec.ofNat 64 (64 * (last % s.areaLoad f.dst area asid 0x028 4))) = some key →
        (((u.open key 64).eccClear key 64).store key f.msg.bytes).placeOf f.dst asid (area + 0x030) = some tail →
        ∃ t, exec (.delivery n) s = .next t ∧ gone t ∧ Reported s t f 0 f.tries ∧ sameBoxes t ∧
          t.mem = Memory.put (Memory.put s.mem key f.msg.bytes) tail (leBytes (last + 1) 4)) ∧
      (Discards s f →
        let u := if f.claimed then u.modCore f.dst fun c => { c with claimed := c.claimed - 1 } else u
        (f.report = .nothing → exec (.delivery n) s = .next u) ∧
        (PostHigh s f → ∃ t, exec (.delivery n) s = .next t ∧ PostTraps s u t f 0x203) ∧
        (ToldInSlot s f → ∃ t, exec (.delivery n) s = .next t ∧ gone t ∧ Reported s t f 0x203 f.tries ∧ sameBoxes t)) ∧
      (∀ k, Passed s f k → ToldHere s f → (∀ off, f.report ≠ .status off) → (s.slot k).retries = [] → Unheld s k →
        s.policy scCore f.dst 2 < 2 →
        ∃ t m, exec (.delivery n) s = .next t ∧ Reported s t f 0 f.tries ∧ sameBoxes t ∧
          (t.slot k).fcause = BitVec.ofNat 64 (2 ^ 63 + 2 ^ 29 + 7 * 2 ^ 20 + 0x201) ∧ (t.slot k).faddr = 0 ∧
          t.net.flights = u.net.flights ++ [m] ∧ m.dst = bits (s.core f.dst).trapdst 19 8 ∧ m.msg.kind = 6 ∧
          bits m.msg.pay[0] 9 0 = 0x201) ∧
      (Refuses s f →
        (f.claimed = true ∨ (f.tries + 1 < 1024 ∧ s.ns < f.born + 1000000) →
          ∃ t, exec (.delivery n) s = .next t ∧ t.slots = s.slots ∧ t.net.flights.length = s.net.flights.length ∧
            t.net.flights[n]? = some { f with
              tries := f.tries + 1, due := some (s.ns + Nat.min (64 * 2 ^ Nat.min f.tries 5) 2000) }) ∧
        (f.claimed = false → (f.tries + 1 = 1024 ∨ f.born + 1000000 ≤ s.ns) →
          (PostHigh s f → ∃ t, exec (.delivery n) s = .next t ∧ PostTraps s u t f 0x202) ∧
          (ToldInSlot s f → ∃ t, exec (.delivery n) s = .next t ∧ gone t ∧ Reported s t f 0x202 (f.tries + 1) ∧
            sameBoxes t)))) ∧
    (∀ (f : Flight) (d : Nat), s.net.flights[n]? = some f → f.due = some d → d ≤ s.ns →
      ∃ t, exec (.retry n) s = .next t ∧ t.net.flights[n]? = some { f with due := none } ∧ t.slots = s.slots ∧
        ∀ m, m ≠ n → t.net.flights[m]? = s.net.flights[m]?) ∧
    ∀ (c : Nat) (j : Fin 8) (d : Nat), (s.slot (slotKey c j.val)).phase = .blocked (.retryAt d) → d ≤ s.ns →
      exec (.retryDelay c j.val) s = .next (s.setSlot (slotKey c j.val)
        { s.slot (slotKey c j.val) with phase := .ready, since := s.cycle, aged := 0 })

/-- R90, R181 to R183: a free core takes the slot of the highest effective priority, then of the earliest arrival: a
ready activation goes on, and an idle actor's candidate message starts one, with its payload in a0 to a5, its header in
the CSRs, USED 0 and the PC at the handler of its type. A running activation yields after 256 cycles to a ready one of
higher effective priority; effective priority rises with every 4,096 cycles; a wait whose condition holds ends, that for
the counters of WBEAD and that for guard entries among them.
The model's own readings in it: log 13. -/
def Obligations.ActivationsAreScheduled : Prop :=
  ∀ (s : State) (c : Nat),
    (∀ n, s.nextSlot c = some n → n < 8 ∧ (s.slot (slotKey c n)).waitsForCore = true ∧
      ∀ m < 8, (s.slot (slotKey c m)).waitsForCore = true →
        s.effective (slotKey c m) ≤ s.effective (slotKey c n) ∧
        (s.effective (slotKey c m) = s.effective (slotKey c n) →
          (s.contest (slotKey c n)).2 ≤ (s.contest (slotKey c m)).2)) ∧
    (∀ n, (s.core c).running = none → s.nextSlot c = some n →
      let k := slotKey c n
      let sl := s.slot k
      ∃ t, exec (.dispatch c) s = .next t ∧ (t.core c).running = some (keySlot k) ∧ (t.slot k).phase = .running ∧
        (t.slot k).ran = 0 ∧ t.mem = s.mem ∧
        (sl.phase = .ready → (t.slot k).prio.toNat = Nat.min 3 (sl.basePrio.toNat + (s.cycle - sl.since) / 4096) ∧
          ((t.slot k).pc, (t.slot k).a, (t.slot k).used, (t.slot k).s, (t.slot k).l) = (sl.pc, sl.a, sl.used, sl.s, sl.l)) ∧
        (∀ b i h, sl.phase = .idle → sl.cand = some (b, i) → (sl.mb[b]).held[i]? = some h →
          ((t.slot k).a, (t.slot k).hdr0, (t.slot k).hdr1, (t.slot k).used) = (h.msg.pay, h.msg.hdr0, h.msg.hdr1, 0) ∧
          (t.slot k).pc = ((s.core c).vect[ix 256 h.msg.type]).setWidth 52 &&& ~~~1#52 ∧
          ((t.slot k).s, (t.slot k).q, (t.slot k).l, (t.slot k).p, (t.slot k).t) = (sl.s, sl.q, sl.l, sl.p, sl.t) ∧
          ((t.slot k).mb[b]).held = (sl.mb[b]).held.eraseIdx i)) ∧
    (∀ (n : Fin 8) (m : Nat), (s.core c).running = some n → s.nextSlot c = some m →
      let k := slotKey c n.val
      (256 ≤ (s.slot k).ran ∧ (s.slot k).basePrio.toNat < s.effective (slotKey c m) →
        ∃ t, exec (.preEmpted c) s = .next t ∧ (t.core c).running = none ∧
          t.slot k = { s.slot k with phase := .ready, since := s.cycle, aged := 0 } ∧ ∀ j, j ≠ k → t.slot j = s.slot j) ∧
      ((s.slot k).ran < 256 → exec (.preEmpted c) s = .next s)) ∧
    ∀ j : Fin 8,
      let k := slotKey c j.val
      let sl := s.slot k
      (sl.waitsForCore = true → sl.aged < (s.cycle - sl.since) / 4096 →
        exec (.ageing c j.val) s = .next (s.setSlot k { sl with aged := sl.aged + 1 })) ∧
      (∀ v d, sl.phase = .blocked (.woken v d) → exec (.waitEnd c j.val) s =
        .next (s.setSlot k { passed 4 1 (wrote d v sl) with phase := .ready, since := s.cycle, aged := 0 })) ∧
      ∀ w, sl.phase = .blocked w →
        ((∃ b, w = .beadRoom b ∧ sl.beads[b] ≠ 63) ∨ (w = .reservation ∧ sl.resv.length < sl.granted) ∨
         (∃ id, w = .supervisor id ∧ ∀ u ∈ s.net.sups, u.id = id → u.result.isSome = true) ∨
         (w = .mxuRoom ∧ (s.core c).mxuIn.length < 8) ∨ (w = .vectorRoom ∧ (s.core c).vecIn.length < 8) ∨
         (∃ cl ch, w = .ladleRoom cl ch ∧ (s.chan cl ch).inbox.length < 16) ∨
         (∃ die i, w = .runnerRoom die i ∧ (s.runInbox die i).length < 4) ∨
         (∃ set, w = .bankRoom set ∧ (s.bankQueue set).length < 8) ∨
         (∃ die, w = .launchRoom die ∧ (s.die die).queued < 64) ∨
         (∃ p, w = .pool p ∧ s.poolUsed p + 1 ≤ 128) ∨
         (∃ ld st cp tl, w = .beads ld st cp tl ∧ sl.beads[0] ≤ ld ∧ sl.beads[1] ≤ st ∧ sl.beads[2] ≤ cp ∧ sl.beads[3] ≤ tl) ∨
         (∃ needs, w = .guards needs ∧ ∀ e ∈ needs, e.2 ≤ (s.freeGuards e.1).length) ∨
         (∃ key, w = .held key ∧ s.waitsAt key 8 = none) ∨
         (w = .drained ∧ ∀ r ∈ s.net.reqs, r.cont = none → ¬(r.core = c ∧ r.ctxid = sl.ctxid))) →
        exec (.waitEnd c j.val) s = .next (s.setSlot k { sl with phase := .ready, since := s.cycle, aged := 0 })

/-- R196: the oldest waiting child of a launch whose core has room becomes a live actor in the slot found there, with the
launch's class, colour, descriptor and windows; it no longer waits, and is counted as placed. Then its initial messages are
delivered, with the child id in a5 of each.
The model's own readings in it: log 52. -/
def Obligations.ChildrenArePlaced : Prop :=
  ∀ (s : State) (die n ch slot : Nat) (l : Launch), (s.die die).launches[n]? = some l → s.launchOf die l.id = some l →
    s.resumable die l = none → s.placeable l = some (ch, slot) → (s.placeChild die l ch slot).stuck = none →
    let k := slotKey (l.cores.getD ch 0) slot
    let placed (t : State) : Prop :=
      let b := t.slot k
      b.status = .live ∧ (b.cls, b.jobcol, b.desc, b.gen, b.launch) = (l.cls, l.colour, l.desc, l.gen, some ⟨die, l.id, ch⟩) ∧
      (∀ i : Fin 8, b.pw[i] = l.pws.getD i.val (0, 0)) ∧
      ∃ x, t.launchOf die l.id = some x ∧ x.placed = l.placed + 1 ∧ ch ∉ x.waiting ∧
        ∀ y, y ∈ x.waiting ↔ y ∈ l.waiting ∧ y ≠ ch
    ∃ v, placed v ∧
      let t := v.continueInitial die l.id ch 0
      exec (.childPlacement die n) s = .next t ∧ (l.msgs = [] → placed t) ∧
      ∀ m, l.msgs = [m] →
        v.judge (keyCore k) (v.initialMsg die l ch (keyCore k) m).2 false = .accepted k .quota →
        placed t ∧ ((t.slot k).mb[m.mb]).held.map (fun h => (h.msg.type, h.msg.pay)) =
          [(m.type, m.pay.set 5 (BitVec.ofNat 64 ch))]

/-! ### Events: launch queues, objects and detectors -/

/-- R86, R87, R395, R396, R202: a launch queue whose head slot is ready takes its record: a launch record is queued with the
queue's address space and colour, or refused with a status, NOOBJ where the queue has unloaded the object; a load or unload
record changes the reference count of the object that it names, or gets NOOBJ. RDIDX advances, with a completion word. An
unloading object that nothing uses is unmapped, once no access through its pages is on its way. The MSI of a coalesced event
page is sent when its window ends. A quiescent detector is disarmed and sends its one message, whose COLOUR is that of the
arming slot; the accesses of its colour have been performed. The model's own readings in it: a descriptor is a physical
address, a load or unload has launch id 0, and the message for an actor that has gone is lost.
The model's own readings in it: logs 7, 21, 22, 53, 56, 74, 77, 90. -/
def Obligations.QueuesAndDetectorsAct : Prop :=
  ∀ (s : State),
    (∀ (die q : Nat) (h : QueueHead) (desc gen : Word) (w : Nat),
      let u := s.openQueue die q
      let v := u.openObject desc
      let d := u.launchQueue die q
      let no := queueNo die q
      let key := s.own (desc.toNat + 0x10)
      let place (u : State) : Prop := u.queuePlace die q .store (d.cw &&& ~~~7#64) = some w
      let unheld (u : State) (r : Except Word Nat) : Prop := (u.queueNext die q h r).stuck = none
      let apart (a b : Nat) : Prop := a + 8 ≤ b ∨ b + 8 ≤ a
      let ended (t : State) (result : Nat) : Prop :=
        t.loadLE (h.cb + 8) 8 = (h.rd + 1) % 2 ^ 64 ∧ t.loadLE w 8 = h.rd % 2 ^ 32 + result
      apart w (h.cb + 8) → apart w key → apart key (h.cb + 8) →
      (u.queueTurn die q = some (h, some (1, desc, gen)) →
        (v.current desc gen = true → place (v.addReference no desc gen) → unheld (v.addReference no desc gen) (.ok 0) →
          ∃ t, exec (.loadReference die q) s = .next t ∧ ended t 0 ∧ t.loadLE key 4 = (v.loadLE key 4 + 1) % 2 ^ 32 ∧
            t.module.refs = s.module.refs ++ [⟨no, desc, gen, false⟩]) ∧
        (v.current desc gen = false → place v → unheld v (.error stNOOBJ) →
          ∃ t, exec (.loadReference die q) s = .next t ∧ ended t (2 * 2 ^ 32 + 2 ^ 63) ∧
            t.loadLE key 4 = v.loadLE key 4)) ∧
      (u.queueTurn die q = some (h, some (2, desc, gen)) → v.current desc gen = true →
        (∃ r ∈ s.module.refs, r.queue = no ∧ r.desc = desc ∧ r.gen = gen ∧ r.gone = false) →
        0 < v.loadLE key 4 → place (v.dropReference no d.asid desc gen) →
        unheld (v.dropReference no d.asid desc gen) (.ok 0) →
        ∃ t, exec (.unload die q) s = .next t ∧ ended t 0 ∧ t.loadLE key 4 = v.loadLE key 4 - 1 ∧
          (v.loadLE key 4 = 1 → t.loadLE (key + 4) 4 = 1 ∧
            t.module.unloads = s.module.unloads ++ [⟨desc, d.asid, gen, false⟩]) ∧
          (v.loadLE key 4 ≠ 1 → t.module.unloads = s.module.unloads)) ∧
      (u.queueTurn die q = some (h, some (0, desc, gen)) →
        let r := (u.dropFrameOf die q h.rd).packetLaunch die h.slot d.asid (d.colour.setWidth 6) (.queue q) (d.frameOf h.rd)
        let gone := u.unloadedBy no desc gen
        (∀ x id, r = (x, .ok id) → gone = false → place x → unheld x (.ok id) →
          ∃ t l, exec (.launchQueueRecord die q) s = .next t ∧ ended t (id % 2 ^ 32 * 2 ^ 32) ∧ t.dies = x.dies ∧
            (t.die die).launches = (u.die die).launches ++ [l] ∧ l.id = id ∧ l.launcher = .queue q ∧ l.asid = d.asid ∧
            l.jobcol = d.colour.setWidth 6) ∧
        (∀ x id, r = (x, .ok id) → gone = true → place (u.dropFrameOf die q h.rd) →
          unheld (u.dropFrameOf die q h.rd) (.error stNOOBJ) →
          ∃ t, exec (.launchQueueRecord die q) s = .next t ∧ ended t (2 * 2 ^ 32 + 2 ^ 63) ∧
            (t.die die).launches = (u.die die).launches) ∧
        (∀ x e, r = (x, .error e) → gone = false → place x → unheld x (.error e) →
          ∃ t, exec (.launchQueueRecord die q) s = .next t ∧ ended t (e.toNat % 2 ^ 8 * 2 ^ 32 + 2 ^ 63) ∧
            (t.die die).launches = (u.die die).launches))) ∧
    (∀ (n : Nat) (u : Unload), s.module.unloads[n]? = some u → u.freed = false → s.inUse u.desc u.gen = false →
      s.stuck = none →
      let d := s.own u.desc.toNat
      let lo := s.loadLE d 8
      let hi := Nat.max (lo + Config.objectBytes u.gen.toNat) (s.loadLE (d + 0x30) 8 + s.loadLE (d + 0x38) 8)
      let cleared := (pagesOf lo hi).foldl (State.unmapAt u.asid) s
      (s.descHolds u.desc u.gen = true → s.travels ⟨some u.asid, lo, hi⟩ = true → exec (.objectFreed n) s = .next s) ∧
      ((s.descHolds u.desc u.gen = true → s.travels ⟨some u.asid, lo, hi⟩ = false ∧ cleared.stuck = none) →
        ∃ t, exec (.objectFreed n) s = .next t ∧ t.module.unloads[n]? = some { u with freed := true } ∧
          (s.descHolds u.desc u.gen = true → t.mem = cleared.mem ∧ ∀ c, ∀ e ∈ (t.core c).tlb, e.asid = u.asid →
            ¬(e.page * 2 ^ e.bits < hi ∧ lo < (e.page + 1) * 2 ^ e.bits)))) ∧
    (∀ (page due : Nat), s.sdie.msiDue.find? (fun e => e.1 = page) = some (page, due) →
      let e := (AMap.get 0 s.sdie.evtpg page).toNat
      (due ≤ s.ns → ∃ t, exec (.coalescingWindow page) s = .next t ∧ t.mem = s.mem ∧
        t.sdie.msis = (e / 2 ^ 48, e % 2 ^ 12) :: s.sdie.msis ∧
        e % 2 ^ 12 ∈ (AMap.get .reset t.sdie.harts (e / 2 ^ 48)).pending) ∧
      (s.ns < due → exec (.coalescingWindow page) s = .next s)) ∧
    ∀ (n : Nat) (x : Detector), s.module.detect[n]? = some x → s.stuck = none →
      let u := s.releaseAll x.scope x.core x.colour
      (s.quiescent x.scope x.core x.colour = false → exec (.quiesced n) s = .next s) ∧
      (s.quiescent x.scope x.core x.colour = true → u.stuck = none → ∃ t, exec (.quiesced n) s = .next t ∧
        t.module.detect = s.module.detect.eraseIdx n ∧ t.mem = u.mem ∧ t.slots = u.slots ∧
        (∀ r ∈ t.net.reqs, r.cont = none → ∀ k, s.slots.any (fun e => e.1 = k) = true → (s.slot k).jobcol = x.colour →
          sameScope x.scope x.core (keyCore k) = true → ¬(r.core = keyCore k ∧ r.ctxid = (s.slot k).ctxid)) ∧
        (s.present x.core x.ctxid = false → t.net.flights = s.net.flights ∧ t.module.removals = s.module.removals + 1) ∧
        (s.present x.core x.ctxid = true → x.core < 4096 → ∃ m, t.net.flights = s.net.flights ++ [m] ∧ m.dst = x.core ∧
          m.claimed = true ∧ m.msg.kind = 4 ∧ m.msg.type = x.type.toNat ∧ m.msg.mb.val = x.mb.toNat ∧
          m.msg.colour = x.jobcol ∧ m.msg.pay[0] = x.colour.setWidth 64 ∧ m.msg.pay[1] = BitVec.ofNat 64 x.scope))

/-! ### Numbers -/

namespace Sys2Proof.Claims

/-- The number that a finite value is. -/
def valQ : Val → Rat
  | .fin neg m e => (if neg then -1 else 1) * m * 2 ^ e
  | _ => 0

/-- The number that a positive ratio is. -/
def ratQ (r : Ratio) : Rat := r.m / r.d * 2 ^ r.e

/-- A magnitude in units of the last place rounds to `n` under a mode, with the sign of the value and the threshold byte
(R36, R37). -/
def Rounds (mode : Nat) (neg : Bool) (t : Nat) (x : Rat) (n : Nat) : Prop :=
  let k : Int := n
  match mode with
  | 0 => (x - n).abs ≤ 1 / 2 ∧ ((x - n).abs = 1 / 2 → n % 2 = 0)
  | 1 => k = x.floor
  | 2 => k = if neg then x.ceil else x.floor
  | 3 => k = if neg then x.floor else x.ceil
  | _ => k = if 256 ≤ (256 * (x - x.floor)).floor + t then x.floor + 1 else x.floor

/-- The float formats: number, exponent bias, fraction bits, largest finite value, and whether it is FP32, BF16 or FP16
(R23, R27, R29). -/
def floats : List (Nat × Int × Int × Rat × Bool) :=
  [(1, 127, 23, (2 ^ 24 - 1) * 2 ^ 104, true), (2, 127, 7, (2 ^ 8 - 1) * 2 ^ 120, true), (3, 15, 10, 65504, true),
   (4, 7, 3, 448, false), (5, 15, 2, 57344, false), (6, 3, 2, 28, false), (7, 1, 3, 15 / 2, false), (8, 1, 1, 6, false),
   (9, 1, 1, 6, false)]

/-- The integer formats with their limits: I8, I32 and N8 (R30). -/
def integers : List (Nat × Int × Int) := [(11, -2 ^ 7, 2 ^ 7 - 1), (12, -2 ^ 31, 2 ^ 31 - 1), (15, 0, 2 ^ 8 - 1)]

/-- An integer as a code of `w` bits. -/
def wrapCode (w : Nat) (v : Int) : Nat := (v % 2 ^ w).toNat

end Sys2Proof.Claims

/-- R36 to R39, R42: a conversion rounds its exact source once. A magnitude is rounded in units of the target's last place by
the mode, and exactly representable values are kept; what passes the largest value overflows as R38's table says; IX, UF,
OF and SAT are set as R38 and R42 say; zeros, infinities and NaNs convert as R39's table says.
The model's own readings in it: log 71. -/
def Obligations.ConversionsRoundOnce : Prop :=
  ∀ (o : Rounding), o.mode ≤ 4 → o.t < 256 →
    (∀ (neg : Bool) (r : Ratio), 0 < r.d →
      let x := ratQ r
      let sign : Rat := if neg then -1 else 1
      (∀ e ∈ integers, ∃ n, Rounds o.mode neg o.t x n ∧
        let w := elemBits e.1
        let v : Int := if neg then -(n : Int) else n
        encodeRatio e.1 o neg r =
          if v < e.2.1 then (wrapCode w e.2.1, flOF ||| flSAT ||| flIX)
          else if e.2.2 < v then (wrapCode w e.2.2, flOF ||| flSAT ||| flIX)
          else (wrapCode w v, if x = n then 0 else flIX)) ∧
      ∀ e ∈ floats,
        let (fmt, bias, frac, largest, ieee) := e
        let c := encodeRatio fmt o neg r
        let v := decodeElem fmt c.1
        (x = 0 → v.isFin = true ∧ valQ v = 0 ∧ v.isNeg = neg ∧ c.2 = 0) ∧
        ∀ l : Int, (2 : Rat) ^ l ≤ x → x < 2 ^ (l + 1) →
          let u := max l (1 - bias) - frac
          ∃ n m, Rounds o.mode neg o.t (x / 2 ^ u) n ∧ Rounds o.mode neg o.t (x / 2 ^ (l - frac)) m ∧
            (n * 2 ^ u ≤ largest → v.isFin = true ∧ valQ v = sign * (n * 2 ^ u) ∧ v.isNeg = neg ∧
              c.2 = (if x = n * 2 ^ u then 0 else flIX) |||
                if x ≠ n * 2 ^ u ∧ (m : Rat) * 2 ^ (l - frac) < 2 ^ (1 - bias) then flUF else 0) ∧
            (largest < n * 2 ^ u →
              let kept := o.mode = 1 ∨ (o.mode = 2 ∧ neg = false) ∨ (o.mode = 3 ∧ neg = true)
              (o.sat = true ∨ ieee = false → valQ v = sign * largest ∧ v.isFin = true ∧ c.2 = flOF ||| flIX ||| flSAT) ∧
              (o.sat = false → ieee = true → c.2 = flOF ||| flIX ∧
                (kept → valQ v = sign * largest ∧ v.isFin = true) ∧ (¬kept → v = .inf neg)))) ∧
    (∀ fmt neg m e, encodeVal fmt o (.fin neg m e) = encodeRatio fmt o neg ⟨m, 1, e⟩) ∧
    (∀ sig neg,
      (∀ e ∈ integers, encodeVal e.1 o (.nan sig) = (0, flNV) ∧
        encodeVal e.1 o (.inf neg) = (wrapCode (elemBits e.1) (if neg then e.2.1 else e.2.2), flNV)) ∧
      (∀ e ∈ [(1, 0x7FC00000), (2, 0x7FC0), (3, 0x7E00)], encodeVal e.1 o (.nan sig) = (e.2, if sig then flNV else 0) ∧
        decodeElem e.1 (encodeVal e.1 o (.inf neg)).1 = .inf neg ∧ (encodeVal e.1 o (.inf neg)).2 = 0))

/-- R40, R41, R43 to R47: a block conversion takes the scale of its largest magnitude and converts each element divided by it,
or is all zero under 0xFF where a source is no number; VF4 takes the smallest scale that reaches the largest magnitude under
its band scale. A keyed rounding draws its byte of the generator's word of the element's column group. The transforms are the
signed sums of R46 and R47. The model's own reading: in the inverse the sign stands in every term.
The model's own readings in it: log 71. -/
def Obligations.BlockConversionsAndTransforms : Prop :=
  (∀ (fmt mode : Nat) (emax : Int) (vs : List Val) (ts : List Nat),
    (fmt, emax) ∈ [(4, 8), (5, 15), (6, 4), (7, 2), (8, 2), (10, 0), (14, 14)] → ts.length = vs.length →
    let b := encodeBlock fmt mode ts vs
    (∀ l : Int, (∀ v ∈ vs, v.isFin = true ∧ (valQ v).abs < 2 ^ (l + 1)) → (∃ v ∈ vs, (2 : Rat) ^ l ≤ (valQ v).abs) →
      b.scale = (max 0 (min 254 (l - emax + 127))).toNat ∧
      ∀ i v, vs[i]? = some v → ∃ y : Val, valQ y = valQ v / 2 ^ ((b.scale : Int) - 127) ∧ y.isFin = true ∧
        b.codes[i]? = some (encodeVal fmt ⟨mode, true, ts.getD i 0⟩ y).1) ∧
    ((∀ v ∈ vs, v.isFin = true ∧ valQ v = 0) → b.scale = 0) ∧
    ((∃ v ∈ vs, v.isFin = false) → b.scale = 255 ∧ b.codes = List.replicate vs.length 0 ∧ b.flags = flNV)) ∧
  (∀ (mode : Nat) (band : Val) (vs : List Val) (ts : List Nat), ts.length = vs.length →
    let b := encodeVf4 mode ts band vs
    let reach (code : Nat) : Rat := 6 * valQ (decodeE3M5 code) * (valQ band).abs
    ((∀ v ∈ vs, v.isFin = true) → (∃ v ∈ vs, valQ v ≠ 0) → band.isFin = true → valQ band ≠ 0 →
      1 ≤ b.scale ∧ b.scale ≤ 254 ∧ ((∀ v ∈ vs, (valQ v).abs ≤ reach b.scale) ∨ b.scale = 254) ∧
      (∀ c < b.scale, ∃ v ∈ vs, reach c < (valQ v).abs) ∧
      ∀ i v, vs[i]? = some v → valQ v ≠ 0 → ∃ r : Ratio, 0 < r.d ∧
        ratQ r = (valQ v).abs / (valQ (decodeE3M5 b.scale) * (valQ band).abs) ∧
        b.codes[i]? = some (encodeRatio 9 ⟨mode, true, ts.getD i 0⟩ (v.isNeg != band.isNeg) r).1) ∧
    (band.isFin = false ∨ (∃ v ∈ vs, v.isFin = false) →
      b.scale = 255 ∧ b.codes = List.replicate vs.length 0 ∧ b.flags = flNV)) ∧
  srg 0x11 2 4 1 = 0x8CA516A3B8DFC4C9 ∧ srg 0x11 0xFFFFFFFF 4 1 = 0xBDBBD1EC2E8C7F1E ∧
  (∀ (key : Key) (r c : Nat), r < 2 ^ 32 → c < 2 ^ 32 →
    let col := (key.col0.toNat + c) % 2 ^ 32
    key.threshold r c = (srg key.tid key.step (BitVec.ofNat 32 (key.row0.toNat + r)) (BitVec.ofNat 32 (col / 8))).toNat /
      2 ^ (8 * (col % 8)) % 2 ^ 8) ∧
  ∀ (mode : Nat) (seed row block : BitVec 32) (vs : List Val), vs.length = 32 → (∀ v ∈ vs, v.isFin = true) →
    let flip (k : Nat) : Rat := if (srg seed 0xFFFFFFFF row block).getLsbD k then -1 else 1
    let walsh (i k : Nat) : Rat := (-1) ^ ((List.range 5).filter fun j => (i &&& k).testBit j).length
    let x (k : Nat) : Rat := valQ (vs.getD k (.fin false 0 0))
    let sum (f : Nat → Rat) : Rat := ((List.range 32).map f).sum
    let fwd := hadamard mode seed row block vs
    let inv := hadamardInv mode seed row block vs
    fwd.1.map valQ = (List.range 32).map (fun i => sum (fun k => walsh i k * flip k * x k) / 8) ∧ fwd.2 = 0 ∧
    inv.1.map valQ = (List.range 32).map (fun k => flip k * sum (fun i => walsh k i * x i) / 4) ∧ inv.2 = 0

/-! ### Events: the matrix unit and the vector unit -/

namespace Sys2Proof.Claims

/-- A command that may start: its guards are entered and its pool entry is claimed where it needs one. -/
def Prepared (cmd : Cmd) (r : ReplyTo) : Prop := cmd.entered = true ∧ (r.rkind = 2 → cmd.claimed.isSome = true)

/-- The MXU of core `c` has taken the command at the head of its inbox and run it with a cause and flags. -/
def MxuRan (s t : State) (c : Nat) (cmd : Cmd) (cause : BitVec 10) (flags : BitVec 7) : Prop :=
  (t.core c).mxuIn = (s.core c).mxuIn.tail ∧ (t.core c).mxuFree = s.cycle + mxuTime cmd.w ∧
  ∃ st, (t.core c).mxuRun = (s.core c).mxuRun ++ [st] ∧ st.cmd = cmd ∧ st.cause = cause ∧ st.flags = flags

/-- The vector unit of core `c` has done so. -/
def VectorRan (s t : State) (c : Nat) (cmd : Cmd) (cause : BitVec 10) (flags : BitVec 7) : Prop :=
  (t.core c).vecIn = (s.core c).vecIn.tail ∧ (t.core c).vecFree = s.cycle + vecTime cmd.w ∧
  ∃ st, (t.core c).vecRun = (s.core c).vecRun ++ [st] ∧ st.cmd = cmd ∧ st.cause = cause ∧ st.flags = flags

/-- Memory is as before outside `bytes` bytes of each of `rows` rows of a plane, and `scales` bytes of its scale plane
(R97, R99). -/
def OnlyPlane (s t : State) (c : Nat) (p : Plane) (rows bytes scales : Nat) : Prop :=
  ∀ a, (∀ r < rows, ∀ i < bytes, a ≠ s.winKey c (p.eoff + r * p.rstride) + i) →
    (∀ i < scales, a ≠ s.winKey c (p.soff + i)) → Memory.read t.mem a = Memory.read s.mem a

/-- Bytes of a row of a plane without blocks, and of its block scales (R22, R99). -/
def lineLen (p : Plane) : Nat := (p.cols * elemBits p.fmt + 7) / 8
def scaleCount (p : Plane) : Nat := p.rows * blockCount p.fmt p.cols

/-- Memory is as before outside a tile's 12,288 bytes (R237). -/
def OutsideTile (s t : State) (c tile : Nat) : Prop :=
  ∀ a, a < s.winKey c (0xC0000 + 0x3000 * tile) ∨ s.winKey c (0xC0000 + 0x3000 * tile) + 0x3000 ≤ a →
    Memory.read t.mem a = Memory.read s.mem a

/-- A 96-bit integer as a tile element holds it (R23). -/
def wrapped96 (v : Int) : Int := if v % 2 ^ 96 < 2 ^ 95 then v % 2 ^ 96 else v % 2 ^ 96 - 2 ^ 96

/-- The floor of an integer moved from anchor `a` to anchor `b` (R253). -/
def moved (x a b : Int) : Int := if b ≤ a then x * 2 ^ (a - b).toNat else x / 2 ^ (b - a).toNat

/-- The code of element (r, k) of a plane without blocks (R22). -/
def codeIn (s : State) (c : Nat) (p : Plane) (r k : Nat) : Nat :=
  s.loadLE (s.winKey c (p.eoff + r * p.rstride)) ((p.cols * elemBits p.fmt + 7) / 8) / 2 ^ (elemBits p.fmt * k) %
    2 ^ elemBits p.fmt

/-- The vector majors with what each performs, and their OPC. -/
noncomputable def vectorWork (c : Nat) : List (Instr × Nat × (State → Nat → Vector Word 8 → Done)) :=
  [(.vecCmdVmap c, 0x48, State.vmapDo), (.vecCmdVfma c, 0x49, State.vfmaDo), (.vecCmdVcmp c, 0x4A, State.vcmpDo),
   (.vecCmdVlog c, 0x4B, State.vlogDo), (.vecCmdVshf c, 0x4C, State.vshfDo), (.vecCmdVred c, 0x4D, State.vredDo),
   (.vecCmdVxf c, 0x4E, State.vxfDo), (.vecCmdVcvt c, 0x4F, State.vcvtDo), (.vecCmdVsel c, 0x50, State.vselDo),
   (.vecCmdVperm c, 0x51, State.vpermDo)]

/-- The number that an integer code is (R30). -/
def codeInt (fmt code : Nat) : Int :=
  if fmt = 15 then code else if 2 ^ (elemBits fmt - 1) ≤ code then code - 2 ^ elemBits fmt else code

/-- The result of a bitwise command on codes of `w` bits, or of a wrapping integer command on 32-bit codes (R273, R284,
R285, R287). -/
def plainResult (opc f w : Nat) (x y z : Nat) : Option Nat :=
  let v (n : Nat) : Int := codeInt 12 n
  match opc, f with
  | 0x48, 0 => some (wrapCode w (v x + v y))
  | 0x48, 1 => some (wrapCode w (v x - v y))
  | 0x48, 2 => some (wrapCode w (v x * v y))
  | 0x48, 3 => some (if v x ≤ v y then x else y)
  | 0x48, 4 => some (if v x ≤ v y then y else x)
  | 0x48, 5 => some (wrapCode w (v x).natAbs)
  | 0x48, 6 => some (wrapCode w (-v x))
  | 0x49, 0 => some (wrapCode w (v x * v y + v z))
  | 0x49, 1 => some (wrapCode w (v x * v y - v z))
  | 0x49, 2 => some (wrapCode w (-(v x * v y) + v z))
  | 0x49, 3 => some (wrapCode w (-(v x * v y) - v z))
  | 0x4B, 0 => some (x &&& y)
  | 0x4B, 1 => some (x ||| y)
  | 0x4B, 2 => some (x ^^^ y)
  | 0x4B, 3 => some (x &&& (2 ^ w - 1 - y))
  | 0x4B, 4 => some (2 ^ w - 1 - x)
  | 0x4B, 5 => some (if x = 0 then 1 else 0)
  | _, _ => none

/-- The exact result of VMAP, and of VFMA with the old element of D (R284, R285). -/
def exactResult (opc f : Nat) (x y z : Rat) : Option Rat :=
  match opc, f with
  | 0x48, 0 => some (x + y)
  | 0x48, 1 => some (x - y)
  | 0x48, 2 => some (x * y)
  | 0x48, 3 => some (if x ≤ y then x else y)
  | 0x48, 4 => some (if x ≤ y then y else x)
  | 0x48, 5 => some x.abs
  | 0x48, 6 => some (-x)
  | 0x49, 0 => some (x * y + z)
  | 0x49, 1 => some (x * y - z)
  | 0x49, 2 => some (-(x * y) + z)
  | 0x49, 3 => some (-(x * y) - z)
  | _, _ => none

/-- The condition of VCMP on two numbers (R286). -/
def Compares (f : Nat) (x y : Rat) : Prop :=
  (f = 0 ∧ x = y) ∨ (f = 1 ∧ x ≠ y) ∨ (f = 2 ∧ x < y) ∨ (f = 3 ∧ x ≤ y) ∨ (f = 4 ∧ y < x) ∨ (f = 5 ∧ y ≤ x) ∨ f = 7

/-- The result of VSHF on a code of an integer format by a count (R288). -/
def Shifts (f fmt a : Nat) (n : Int) (r : Nat) : Prop :=
  let w := elemBits fmt
  let v := codeInt fmt a
  let top : Int := if 2 ^ w ≤ 2 * a then a - 2 ^ w else a
  if n < 0 ∨ w ≤ n then r = if f = 2 ∧ 2 ^ w ≤ 2 * a then 2 ^ w - 1 else 0
  else
    (f = 0 → r = a * 2 ^ n.toNat % 2 ^ w) ∧ (f = 1 → r = a / 2 ^ n.toNat) ∧ (f = 2 → r = wrapCode w (top / 2 ^ n.toNat)) ∧
    (f = 3 → ∃ m, Rounds 0 (decide (v < 0)) 0 (v.natAbs / 2 ^ n.toNat) m ∧ r = wrapCode w (if v < 0 then -(m : Int) else m))

/-- The unit of core `c` starts the vector command at the head of its inbox (R281). -/
structure VectorStarts (s : State) (c : Nat) (cmd : Cmd) (i : Instr) (opc : Nat)
    (perform : State → Nat → Vector Word 8 → Done) : Prop where
  work  : (i, opc, perform) ∈ vectorWork c
  head  : (s.core c).vecIn.head? = some cmd
  free  : (s.core c).vecFree ≤ s.cycle
  major : vecOpc cmd.w = opc
  insn  : cmd.insn = true
  ready : Prepared cmd (vecReplyTo c cmd.w)
  fits  : lineLen (vecD cmd.w) ≤ (vecD cmd.w).rstride

end Sys2Proof.Claims

/-- R251, R254 to R260: the MXU runs the command at the head of its inbox: MZERO zeroes its tile and resets its monitors,
loads or adds an image, or restores the monitors; MANCH moves every element to the new anchor; MSTAT stores the monitors;
MMA adds to each element the terms of its row pair, each a product moved to the anchor and floored; MBPUT copies rows; MCVT
moves or converts the elements, and MRESC multiplies, rounds and clamps them, and neither writes an element of a poisoned
tile. Nothing outside the tile, or the rows and scales of the destination, changes.
The model's own readings in it: log 10. -/
def Obligations.MatrixCommandsArePerformed : Prop :=
  ∀ (s : State) (c : Nat) (cmd : Cmd) (rest : List Cmd), (s.core c).mxuIn = cmd :: rest → (s.core c).mxuFree ≤ s.cycle →
    cmd.insn = true → Prepared cmd (mxuReplyTo c cmd.w) →
    let w := cmd.w
    let tile := mxuTile w
    let T := s.tile c tile
    let X := mxuX w
    let Y := mxuY w
    let inTile (t : State) : Prop := OutsideTile s t c tile.val ∧ ∀ u, u ≠ tile → t.tile c u = s.tile c u
    (mxuOpc w = 0x41 → (mxuF w = 2 → X.rows ≤ 32 ∧ X.cols ≤ 32) → ∃ t fl, exec (.mxuCmdMzero c) s = .next t ∧ MxuRan s t c cmd 0 fl ∧ inTile t ∧
      (mxuF w = 0 → (∀ r < 32, ∀ k < 32, t.tileInt c tile r k = 0) ∧
        t.tile c tile = ⟨BitVec.ofInt 16 (mxuAnchor w), 0x8000#16, 0, false, false, false⟩) ∧
      (mxuF w = 1 → X.fmt = fACC96 → X.rows ≤ 32 → X.cols ≤ 32 →
        (t.tile c tile).anchor = BitVec.ofInt 16 (mxuAnchor w) ∧ (t.tile c tile).hwx = 0x8000#16 ∧
        ∀ r < 32, ∀ k < 32, t.tileInt c tile r k = if r < X.rows ∧ k < X.cols then
          wrapped96 (moved (wrapped96 (codeIn s c X r k)) X.anchor (mxuAnchor w)) else 0) ∧
      (mxuF w = 2 → X.fmt = fACC96 →
        ∀ r < 32, ∀ k < 32, t.tileInt c tile r k = if r < X.rows ∧ k < X.cols then
          wrapped96 (s.tileInt c tile r k + moved (wrapped96 (codeIn s c X r k)) X.anchor (mxuAnchor w))
          else s.tileInt c tile r k) ∧
      (mxuF w = 3 → t.mem = s.mem ∧ (s.poisoned (s.winKey c X.eoff) 8 = false →
        let v := BitVec.ofNat 64 (s.loadLE (s.winKey c X.eoff) 8)
        t.tile c tile = { T with
          hwx := v.setWidth 16, trc := v.extractLsb' 16 16, widen := v.getLsbD 32, invalid := v.getLsbD 33,
          poison := T.poison || v.getLsbD 34 }))) ∧
    (mxuOpc w = 0x45 → ∃ t fl, exec (.mxuCmdManch c) s = .next t ∧ MxuRan s t c cmd 0 fl ∧ inTile t ∧
      (t.tile c tile).anchor = BitVec.ofInt 16 (mxuAnchor w) ∧
      ∀ r < 32, ∀ k < 32, t.tileInt c tile r k = wrapped96 (moved (s.tileInt c tile r k) T.anchor.toInt (mxuAnchor w))) ∧
    (mxuOpc w = 0x44 → ∃ t, exec (.mxuCmdMstat c) s = .next t ∧ MxuRan s t c cmd 0 0 ∧
      (let key := s.winKey c X.eoff
       t.loadLE key 8 = T.hwx.toNat + T.trc.toNat * 2 ^ 16 + T.widen.toNat * 2 ^ 32 + T.invalid.toNat * 2 ^ 33 +
         T.poison.toNat * 2 ^ 34 + T.anchor.toNat * 2 ^ 48 ∧
       ∀ a, a < key ∨ key + 8 ≤ a → Memory.read t.mem a = Memory.read s.mem a) ∧
      t.tile c tile = if mxuF w = 1 then { T with hwx := 0x8000#16, trc := 0, widen := false } else T) ∧
    (mxuOpc w = 0x40 → X.rows ≤ 32 → Y.rows ≤ 32 → ∃ t fl, exec (.mxuCmdMma c) s = .next t ∧ MxuRan s t c cmd 0 fl ∧ inTile t ∧
      (t.tile c tile).anchor = T.anchor ∧
      ∀ r < 32, ∀ k < 32, t.tileInt c tile r k = if r < X.rows ∧ k < Y.rows then
        wrapped96 (mmaElem T.anchor.toInt ⟨s.tileInt c tile r k, 0, 0, false, false⟩ (s.rowTerms c X r)
          (s.rowValues c Y k).toArray).sum
        else s.tileInt c tile r k) ∧
    (mxuOpc w = 0x42 → ∃ t fl e, exec (.mxuCmdMcvt c) s = .next t ∧ MxuRan s t c cmd e fl ∧ t.tile c tile = T ∧
      OnlyPlane s t c X X.rows (lineLen X) (scaleCount X) ∧
      (T.poison = true → X.fmt ≠ fACC96 → e = 0x118 ∧ fl = 0 ∧ t.mem = s.mem) ∧
      ((T.poison = false ∨ X.fmt = fACC96) → e = 0 ∧ (lineLen X ≤ X.rstride → ∀ r < X.rows, ∀ k < X.cols,
        (X.fmt = fACC96 → codeIn t c X r k = wrapCode 96 (moved (s.tileInt c tile r k) T.anchor.toInt X.anchor)) ∧
        (blockLen X.fmt = 0 → X.fmt ≠ fACC96 → X.had = false → mxuF w ≤ 4 → ∃ y : Val,
          (T.invalid = true → y = .nan false) ∧
          (T.invalid = false → y.isFin = true ∧ valQ y = s.tileInt c tile r k * 2 ^ T.anchor.toInt) ∧
          codeIn t c X r k = (encodeVal X.fmt ⟨mxuF w, decide (mxuCtl w = 1),
            if mxuF w = 4 then (mxuKey w).threshold r k else 0⟩ y).1)))) ∧
    (mxuOpc w = 0x43 → ∃ t fl e, exec (.mxuCmdMresc c) s = .next t ∧ MxuRan s t c cmd e fl ∧ t.tile c tile = T ∧
      OnlyPlane s t c X X.rows (lineLen X) 0 ∧ (T.poison = true → e = 0x118 ∧ fl = 0 ∧ t.mem = s.mem) ∧
      (T.poison = false → s.poison = [] → e = 0 ∧
        (Y.spr = false → Y.cols = X.cols → Y.fmt = fI32 → lineLen X ≤ X.rstride →
          ∀ f ∈ integers, X.fmt = f.1 → f.1 ≠ 15 → ∀ r < X.rows, ∀ k < X.cols,
            (T.invalid = true → codeIn t c X r k = 0) ∧
            (T.invalid = false →
              let v : Int := s.tileInt c tile r k * codeInt 12 (codeIn s c Y 0 k)
              ∃ n, Rounds 0 (decide (v < 0)) 0
                  (v.natAbs * 2 ^ (T.anchor.toInt - (codeIn s c Y 1 k % 64 : Nat))) n ∧
                codeIn t c X r k = wrapCode (elemBits X.fmt) (max f.2.1 (min f.2.2 (if v < 0 then -(n : Int) else n))))))) ∧
    (mxuOpc w = 0x46 → ∃ t, exec (.mxuCmdMbput c) s = .next t ∧ MxuRan s t c cmd 0 0 ∧
      OnlyPlane s t c X Y.rows Y.rowBytes Y.scaleBytes ∧
      (Y.scaleBytes = 0 → Y.rowBytes ≤ X.rstride → ∀ r < Y.rows, ∀ i < Y.rowBytes,
        Memory.read t.mem (s.winKey c (X.eoff + r * X.rstride + i)) =
          Memory.read s.mem (s.winKey c (Y.eoff + r * Y.rstride + i)))) ∧
    ∀ (m : MmaSum) (α : Int) (sa sb : Bool) (x y : Nat) (e f : Int),
      (m.term α (.fin sa x e) (.fin sb y f)).sum =
        m.sum + moved (if sa = sb then (x * y : Nat) else -((x * y : Nat) : Int)) (e + f) α

/-- R268 to R289, R292, R293: the vector unit runs the command at the head of its inbox, its reply is due, and nothing outside
the rows and scales of the destination changes. Bitwise and wrapping integer commands, comparisons, shifts, selections,
permutations and integer reductions give each element of the destination what their rule makes of the elements of the
sources.
The model's own readings in it: log 10. -/
def Obligations.VectorCommandsArePerformed : Prop :=
  ∀ (s : State) (c : Nat) (cmd : Cmd) (i : Instr) (opc : Nat) (perform : State → Nat → Vector Word 8 → Done),
    VectorStarts s c cmd i opc perform →
    let w := cmd.w
    let f := vecF w
    let D := vecD w
    let A := vecA w
    let B := vecB w
    let like (p : Plane) : Prop := p.rows = D.rows ∧ p.cols = D.cols
    let n := elemBits D.fmt
    ∃ t, exec i s = .next t ∧ VectorRan s t c cmd (perform s c w).2.2 (perform s c w).2.1 ∧ t.mem = (perform s c w).1.mem ∧
      OnlyPlane s t c D D.rows (lineLen D) (scaleCount D) ∧ ∀ x y, x < D.rows → y < D.cols →
        let a := codeIn s c A x y
        let b := codeIn s c B x y
        let r := codeIn t c D x y
        (like A → (vecUsesB opc f = true → like B) →
          (A.fmt = D.fmt → (vecUsesB opc f = true → B.fmt = D.fmt) → vecCtl w = 0 → (D.fmt = fI32 ∨ (opc = 0x4B ∧ D.fmt = fN8)) →
            ∀ v, plainResult opc f n a b (codeIn s c D x y) = some v → r = v) ∧
          (opc = 0x48 → A.fmt = D.fmt → 1 ≤ D.fmt → D.fmt ≤ 3 →
            (f = 5 → r = a % 2 ^ (n - 1)) ∧ (f = 6 → r = a ^^^ 2 ^ (n - 1))) ∧
          (opc = 0x4A → D.fmt = fN8 → f < 8 → (decodeElem A.fmt a).isFin = true → (decodeElem B.fmt b).isFin = true →
            (Compares f (valQ (decodeElem A.fmt a)) (valQ (decodeElem B.fmt b)) → r = 1) ∧
            (¬Compares f (valQ (decodeElem A.fmt a)) (valQ (decodeElem B.fmt b)) → r = 0)) ∧
          (opc = 0x4C → A.fmt = D.fmt → A.fmt ∈ [11, 12, 15] → B.fmt ∈ [11, 12, 15] → f < 4 →
            Shifts f A.fmt a (codeInt B.fmt b) r) ∧
          (opc = 0x50 → A.fmt = D.fmt → B.fmt ∈ [11, 12, 15] →
            let at_ (j : Nat) : Int := codeInt B.fmt (codeIn s c B x j)
            (f = 0 → r = if b ≠ 0 then a else codeIn s c D x y) ∧
            (f = 1 → r = if 0 ≤ at_ y ∧ at_ y < A.cols then codeIn s c A x (at_ y).toNat else 0) ∧
            (f = 2 → r = if 0 ≤ at_ 0 ∧ at_ 0 < A.rows then codeIn s c A (at_ 0).toNat y else 0) ∧
            (f = 3 →
              let before (j : Nat) : Nat := ((List.range j).filter fun m => codeIn s c B x m ≠ 0).length
              (b ≠ 0 → codeIn t c D x (before y) = a) ∧ (before D.cols ≤ y → r = 0))) ∧
          (opc = 0x51 → A.fmt = D.fmt →
            (f = 1 → r = codeIn s c A x (D.cols - 1 - y)) ∧
            (f = 2 → D.cols % 2 = 0 → r = codeIn s c A x (y / 2 + if y % 2 = 0 then 0 else D.cols / 2)) ∧
            (f = 3 → D.cols % 2 = 0 →
              r = codeIn s c A x (if y < D.cols / 2 then 2 * y else 2 * (y - D.cols / 2) + 1)))) ∧
        (opc = 0x51 → A.fmt = D.fmt → f = 0 → A.rows = D.cols → A.cols = D.rows → r = codeIn s c A y x) ∧
        (opc = 0x4D → A.fmt = fI32 → D.fmt = fI32 → A.rows = D.rows → 0 < A.cols → vecCtl w < 4 →
          let v (j : Nat) : Int := codeInt 12 (codeIn s c A x j)
          (f = 0 → r = wrapCode 32 ((List.range A.cols).map v).sum) ∧
          (f = 1 → (∀ j < A.cols, v j ≤ codeInt 12 r) ∧ ∃ j < A.cols, v j = codeInt 12 r) ∧
          (f = 2 → (∀ j < A.cols, codeInt 12 r ≤ v j) ∧ ∃ j < A.cols, v j = codeInt 12 r) ∧
          (f = 4 → r < A.cols ∧ (∀ j < A.cols, v j ≤ v r) ∧ ∀ j < r, v j < v r) ∧
          (f = 5 → r < A.cols ∧ (∀ j < A.cols, v r ≤ v j) ∧ ∀ j < r, v r < v j))

/-- R272, R284, R285, R289 to R291: the float commands of the vector unit compute exactly and round once: VMAP and VFMA round
the exact sum, product or choice, a NaN operand of VMAP gives the canonical NaN, VCVT converts its source, exp2 of a whole
number, log2 of a power of two and rcp round the exact value, and a reduction of one or two columns rounds what it combines. -/
def Obligations.VectorArithmeticRoundsOnce : Prop :=
  ∀ (s : State) (c : Nat) (cmd : Cmd) (i : Instr) (opc : Nat) (perform : State → Nat → Vector Word 8 → Done),
    VectorStarts s c cmd i opc perform →
    let w := cmd.w
    let f := vecF w
    let ctl := vecCtl w
    let D := vecD w
    let A := vecA w
    let B := vecB w
    let o : Rounding := ⟨ctl % 4, decide (4 ≤ ctl), 0⟩
    let float (p : Plane) : Prop := 1 ≤ p.fmt ∧ p.fmt ≤ 3
    let rounded (r : Nat) (v : Rat) : Prop := ∃ u : Val, u.isFin = true ∧ valQ u = v ∧ r = (encodeVal D.fmt o u).1
    ∃ t, exec i s = .next t ∧ ∀ x y, x < D.rows → y < D.cols →
      let a := decodeElem A.fmt (codeIn s c A x y)
      let b := decodeElem B.fmt (codeIn s c B x y)
      let z := decodeElem D.fmt (codeIn s c D x y)
      let r := codeIn t c D x y
      ((A.rows, A.cols) = (D.rows, D.cols) → (vecUsesB opc f = true → (B.rows, B.cols) = (D.rows, D.cols)) →
        (float D → float A → float B → (opc = 0x48 → f < 5) → a.isFin = true → b.isFin = true → (opc = 0x49 → z.isFin = true) →
          ∀ v, exactResult opc f (valQ a) (valQ b) (valQ z) = some v → rounded r v) ∧
        (float D → float A → opc = 0x48 → (f = 5 ∨ f = 6) → D.fmt ≠ A.fmt → a.isFin = true →
          ∀ v, exactResult opc f (valQ a) 0 0 = some v → rounded r v) ∧
        (float D → float A → float B → opc = 0x48 → f < 5 → (a.isNan = true ∨ b.isNan = true) →
          (D.fmt, r) ∈ [(1, 0x7FC00000), (2, 0x7FC0), (3, 0x7E00)]) ∧
        (opc = 0x4F → blockLen A.fmt = 0 → blockLen D.fmt = 0 → A.fmt ≠ fACC96 → D.fmt ≠ fACC96 → A.had = false →
          D.had = false → f ≤ 4 →
          r = (encodeVal D.fmt ⟨f, decide (ctl = 1), if f = 4 then (vecKey w).threshold x y else 0⟩ a).1) ∧
        (opc = 0x4E → float D → float A → a.isFin = true →
          (∀ k : Int, f = 0 → valQ a = k → k.natAbs ≤ 2000 → rounded r (2 ^ k)) ∧
          (∀ k : Int, f = 1 → valQ a = 2 ^ k → rounded r k) ∧
          (f = 2 → valQ a ≠ 0 → ∃ q : Ratio, 0 < q.d ∧ ratQ q = 1 / (valQ a).abs ∧ r = (encodeRatio D.fmt o a.isNeg q).1) ∧
          (valQ a = 0 → (f = 1 → decodeElem D.fmt r = .inf true) ∧ (f = 2 ∨ f = 3 → decodeElem D.fmt r = .inf a.isNeg)))) ∧
      (opc = 0x4D → float D → float A → A.rows = D.rows → f < 4 →
        let v (j : Nat) : Val := decodeElem A.fmt (codeIn s c A x j)
        let leaf (j : Nat) : Rat := if f = 3 then (valQ (v j)).abs else valQ (v j)
        (A.cols = 1 → (v 0).isFin = true → rounded r (leaf 0)) ∧
        (A.cols = 2 → (v 0).isFin = true → (v 1).isFin = true →
          ∀ q, exactResult 0x48 (if f = 0 then 0 else if f = 2 then 3 else 4) (leaf 0) (leaf 1) 0 = some q → rounded r q))

/-- R15, R248, R280, R50, R159: the oldest command that an MXU or a vector unit has run without a fault replies: its guards
leave, its flags are ORed into FLAGS, and it lowers its bead, writes its flag word, or sends a message of KIND 2 on VC 1 with
its value for the entry that was claimed; a flag word of a faulted command that no context issued holds the cause under
bit 63. R249, R279: a posted command with an acceptable reply kind enters an inbox that has room, and its poster goes on.
The model's own readings in it: log 10. -/
def Obligations.MatrixAndVectorReplies : Prop :=
  ∀ (s : State) (c : Nat), s.stuck = none →
    (∀ (vec : Bool) (st : Started) (rest : List Started),
      let co := s.core c
      let r := if vec then vecReplyTo c st.cmd.w else mxuReplyTo c st.cmd.w
      let i : Instr := if vec then .vectorReply c else .mxuReply c
      let flag := s.winKey r.core (r.off / 8 * 8)
      let ended (t : State) : Prop := (if vec then (t.core c).vecRun else (t.core c).mxuRun) = rest ∧
        ∀ g ∈ (t.core c).guards, g ∈ co.guards ∧ g.cmd ≠ some st.cmd.id
      (if vec then co.vecRun else co.mxuRun) = st :: rest →
      (∀ (n : Fin 8) (x : Ctx), st.cause = 0 → s.ctx c r.ctxid = some x → x.loc = .slot n →
        let k := slotKey c n.val
        let sl := s.slot k
        sl.status = .live →
        let kept (t : State) : Prop := (t.slot k).flags = sl.flags ||| st.flags ∧ (t.slot k).beads = sl.beads
        (r.rkind = 0 → ∃ t, exec i s = .next t ∧ ended t ∧ t.mem = s.mem ∧ t.net = s.net ∧
          t.slot k = { sl with
            flags := sl.flags ||| st.flags
            beads := sl.beads.set r.bead (if sl.beads[r.bead] = 0 then 0 else sl.beads[r.bead] - 1) } ∧
          ∀ j, j ≠ k → t.slot j = s.slot j) ∧
        (r.rkind = 1 → ∃ t, exec i s = .next t ∧ ended t ∧ kept t ∧ BytesWritten s t flag 8 r.value.toNat) ∧
        (r.rkind = 2 → st.cmd.claimed.isSome = true → ∃ t m, exec i s = .next t ∧ ended t ∧ kept t ∧ t.mem = s.mem ∧
          t.net.flights = s.net.flights ++ [m] ∧ m.dst = r.core ∧ m.claimed = true ∧ m.msg.kind = 2 ∧ m.msg.vc = true ∧
          m.msg.type = r.type % 2 ^ 8 ∧ m.msg.mb.val = r.mb % 4 ∧ m.msg.pay = #v[r.value, 0, 0, 0, 0, 0])) ∧
      (r.rkind = 1 → st.cause ≠ 0 → st.cmd.issuer = none → s.ctx c r.ctxid = none →
        ∃ t, exec i s = .next t ∧ ended t ∧ t.mem = (s.storeLE flag 8 (2 ^ 63 + st.cause.toNat)).mem)) ∧
    ∀ (vec : Bool) (n : Nat) (p : Post),
      let r := if vec then vecReplyTo c p.w else mxuReplyTo c p.w
      let inbox (t : State) : List Cmd := if vec then (t.core c).vecIn else (t.core c).mxuIn
      s.net.posts[n]? = some p → p.due = none → p.inbox = (if vec then .vector c else .mxu c) → (r.rkind = 1 ∨ r.rkind = 2) →
      ((inbox s).length < 8 → ∃ t cmd, exec (if vec then .vectorInboxPost n else .mxuInboxPost n) s = .next t ∧
        inbox t = inbox s ++ [cmd] ∧ cmd.w = p.w ∧ cmd.id = p.id ∧ cmd.insn = false ∧
        t.net.posts = s.net.posts.eraseIdx n ∧
        ∀ k va len cost, s.postWaiter p.id = some (k, va, len, cost) →
          (t.slot k).phase = .ready ∧ (t.slot k).pc = (s.slot k).pc + BitVec.ofNat 52 len) ∧
      (8 ≤ (inbox s).length → p.tries + 1 < 1024 → s.ns < p.born + 1000000 →
        ∃ t, exec (if vec then .vectorInboxPost n else .mxuInboxPost n) s = .next t ∧ inbox t = inbox s ∧
          t.net.posts[n]? = some { p with
            tries := p.tries + 1, due := some (s.ns + Nat.min (64 * 2 ^ Nat.min p.tries 5) 2000) })

/-! ### Events: the Ladle -/

namespace Sys2Proof.Claims

/-- The memory keys of the bytes of some pieces, in order (R305). -/
def pieceKeys (ps : List Piece) : List Nat := ps.flatMap fun p => (List.range p.n).map (p.key + ·)

/-- The virtual addresses of a footprint's bytes, in order (R305). -/
def footAddrs (f : Foot) : List Nat := f.pieces.flatMap fun p => (List.range p.n).map (p.va + ·)

/-- Every access of some pieces is performed now: its translation stands, and its owner neither refuses nor holds it
(R231, R362, R366, R399). -/
def Unhindered (s : State) (ps : List Piece) : Prop :=
  ∀ p ∈ ps, p.stale = false ∧ s.pieceCause p = none ∧ s.waitsAt p.key p.n = none

/-- No word of the module needs to be mended or rebuilt when it is read (R358). -/
def Sound (s : State) : Prop := ∀ st, (s.stack st).sound = true

end Sys2Proof.Claims

/-- R298, R305, R306: a free channel takes the packet whose turn it is: it lays out what a copy, fill or relayout is to
move; a NOP changes no byte; a launch queues its record under a new id and replies the id. R307: byte c of source row k of a
relayout goes to the place of byte c of global row J0 + k. R305: a packet that runs moves its next bytes: a copy or relayout
gives the bytes of its destination, in order, those of its source; a fill gives the byte at an address the byte of its
pattern at that address modulo 8. R306: where the renewed walk of a translation that TLBI removed fails, the packet ends with
that cause. R310, R317: a doorbell or poll of a bound queue reads SEQ of its head slot. R311, R313: once nothing is left to
move the reply frees the channel, and lowers the bead or advances RDIDX. The model's own readings in it: logs 10, 49, 80. -/
def Obligations.LadlePacketsArePerformed : Prop :=
  ∀ (s : State) (cl ch : Nat),
    (∀ (x : Candidate) (i : Issuer) (u : State) (p : Carriage),
      let w := x.cmd.w
      let asid : BitVec 16 := w[7].extractLsb' 40 16
      let cls : BitVec 2 := if w[7].getLsbD 56 then 2 else 0
      s.nextPacket cl ch = some x → x.queue = none → x.cmd.issuer = some i → (ladReplyTo w).rkind ≠ 2 →
      s.bump.plan i.core (cl / 4) asid cls w = .ok (u, p) →
      let v := u.openPages i.core asid p
      v.stuck = none →
      let taken (t : State) (cause : BitVec 10) (work : Option Work) : Prop :=
        (t.chan cl ch).inbox = (s.chan cl ch).inbox.tail ∧
        ∃ y, (t.chan cl ch).cur = some y ∧ y.queue = none ∧ y.started.cmd = x.cmd ∧ y.started.cause = cause ∧ y.work = work
      (ladOpc w = 0x13 → ∃ t, exec (.ladleNop cl ch) s = .next t ∧ taken t 0 none ∧ t.mem = v.mem) ∧
      (∀ dst, p.dst = some dst →
        let work : Work := ⟨i.core, asid, cls, p.src.elim [] Foot.pieces, dst.pieces⟩
        let laid (e : Instr) : Prop := ∃ t, exec e s = .next t ∧ taken t 0 (some work) ∧ t.mem = v.mem
        (ladOpc w = 0x10 → laid (.ladleCopy cl ch)) ∧ (ladOpc w = 0x11 → laid (.ladleFill cl ch)) ∧
        (ladOpc w = 0x12 → laid (.ladleRelayout cl ch) ∧
          ∀ (r : State) (h : Shape) (f src : Foot) (rows : Nat) (stride : Int),
            s.bump.readShape i.core asid cls w[4] = .ok (r, h, f) → h.dims = [(rows, stride)] → p.src = some src →
            ∀ k < rows, ∀ c < h.len0,
              let j := bits w[5] 31 0 + k
              (footAddrs src)[k * h.len0 + c]? = some (((w[2].toNat : Int) + k * stride).toNat + c) ∧
              (footAddrs dst)[k * h.len0 + c]? = some (w[3].toNat + j % 32 * 0x10000 + j / 32 * h.len0 + c))) ∧
      (ladOpc w = 0x14 →
        let m := v.submit i.core (cl / 4) asid cls (s.bump.packetLauncher x) none w
        m.s.stuck = none → ∃ t, exec (.ladleLaunch cl ch) s = .next t ∧ taken t m.cause none ∧ t.dies = m.s.dies ∧
          (m.cause = 0 → ∃ l y, (t.die (cl / 4)).launches = (v.die (cl / 4)).launches ++ [l] ∧
            l.id = (v.die (cl / 4)).freshId ∧ (∀ o ∈ (v.die (cl / 4)).launches, o.id ≠ l.id ∨ 2 ^ 32 ≤ (v.die (cl / 4)).launches.length) ∧
            l.jobcol = ladColour w ∧ l.asid = asid ∧ (t.chan cl ch).cur = some y ∧
            y.started.extra = BitVec.ofNat 64 l.id))) ∧
    (∀ (p : Packet) (w : Work),
      let ws := p.started.cmd.w
      let n := Config.movedBytes s.tick + 1
      let front := (splitPieces n w.src).1
      let back := (splitPieces n w.dst).1
      s.stuck = none → (s.chan cl ch).cur = some p → p.work = some w →
      let moved (t : State) (cause : BitVec 10) (work : Option Work) : Prop :=
        ∃ y, (t.chan cl ch).cur = some y ∧ y.queue = p.queue ∧ y.started.cmd = p.started.cmd ∧ y.started.cause = cause ∧ y.work = work
      (ladOpc ws = 0x11 → Unhindered s back → (s.fillBytes ws[2] back).s.stuck = none →
        ∃ t, exec (.ladleFill cl ch) s = .next t ∧ moved t 0 (w.after (bytesIn back)) ∧
          (∀ a, a ∉ pieceKeys back → Memory.read t.mem a = Memory.read s.mem a) ∧
          ((pieceKeys back).Nodup → ∀ q ∈ back, ∀ i < q.n,
            Memory.read t.mem (q.key + i) = BitVec.ofNat 8 (ws[2].toNat / 256 ^ ((q.va + i) % 8)))) ∧
      ((ladOpc ws = 0x10 ∨ ladOpc ws = 0x12) → Unhindered s front → Unhindered s back → bytesIn front = bytesIn back → Sound s →
        (s.moveBytes front back).s.stuck = none → (∀ q ∈ front, q.x.tol = false) →
        ∃ t, exec (if ladOpc ws = 0x10 then .ladleCopy cl ch else .ladleRelayout cl ch) s = .next t ∧
          moved t 0 (w.after (bytesIn back)) ∧
          (∀ a, a ∉ pieceKeys back → Memory.read t.mem a = Memory.read s.mem a) ∧
          ((pieceKeys back).Nodup → ∀ (i a b : Nat), (pieceKeys front)[i]? = some a → (pieceKeys back)[i]? = some b →
            Memory.read t.mem b = Memory.read s.mem a)) ∧
      (∀ (q : Piece) (rest : List Piece) (e : BitVec 10), ladOpc ws = 0x11 → w.src = [] → back = q :: rest → q.stale = true →
        s.translate w.core w.asid w.cls .store (BitVec.ofNat 64 q.va) = .error e → e ≠ 0 → (s.openStale w back).stuck = none →
        ∃ t, exec (.ladleFill cl ch) s = .next t ∧ moved t e none ∧ t.mem = (s.openStale w back).mem)) ∧
    (∀ (q key : Nat),
      let b := s.queue cl q
      b.bound = true → s.unitPlace b.core b.asid b.cls .load (b.ring + BitVec.ofNat 64 (64 * (b.rdidx.toNat % b.cap))) = .ok key →
      s.stuck = none → Sound s → s.waitsAt key 8 = none → s.retiredAt key = false → s.unreachable key = false →
      ∃ t, exec (.doorbell cl q) s = .next t ∧ exec (.queuePoll cl q) s = .next t ∧ t.mem = s.mem ∧
        t.queue cl q = { b with ready := decide (s.loadLE (key + 4) 4 = b.rdidx.toNat % 2 ^ 32) }) ∧
    (∀ (p : Packet) (i : Issuer) (n : Fin 8) (y : Ctx),
      let r := ladReplyTo p.started.cmd.w
      let k := slotKey i.core n.val
      let sl := s.slot k
      s.stuck = none → (s.chan cl ch).cur = some p → p.work = none → p.queue = none → p.started.cmd.issuer = some i →
      p.started.cause = 0 → r.rkind = 0 →
      s.ctx i.core r.ctxid = some y → y.loc = .slot n → sl.status = .live →
      ∃ t, exec (.ladleReply cl ch) s = .next t ∧ (t.chan cl ch).cur = none ∧ t.mem = s.mem ∧
        t.slot k = { sl with
          flags := sl.flags ||| p.started.flags
          beads := sl.beads.set r.bead (if sl.beads[r.bead] = 0 then 0 else sl.beads[r.bead] - 1) }) ∧
    ∀ (p : Packet) (q key : Nat),
      let b := s.queue cl q
      s.stuck = none → (s.chan cl ch).cur = some p → p.work = none → p.queue = some q → p.started.cause = 0 → p.started.poison = false →
      (ladReplyTo p.started.cmd.w).rkind = 3 → s.unitPlace b.core b.asid b.cls .store b.cb = .ok key → s.waitsAt key 32 = none →
      ∃ t, exec (.ladleReply cl ch) s = .next t ∧ (t.chan cl ch).cur = none ∧
        t.queue cl q = { b with rdidx := b.rdidx + 1, ready := false } ∧
        t.loadLE (key + 8) 8 = (s.loadLE (key + 8) 8 + 1) % 2 ^ 64

/-! ### Events: the Runner -/

namespace Sys2Proof.Claims

/-- The play of a communicator goes on with op `i` in a state. -/
def OpIs (t : State) (die c i : Nat) (o : OpState) : Prop :=
  ∃ p, (t.comm die c).play = some p ∧ p.ops[i]? = some o

/-- The play of a communicator is aborted with a cause, or has ended (R335, R341). -/
def Aborted (t : State) (die c : Nat) (cause : BitVec 10) (origin : Nat) : Prop :=
  (t.comm die c).play = none ∨ ∃ p, (t.comm die c).play = some p ∧ p.abort = some (cause, origin)

/-- Op `i` of a communicator is enabled, and its credit or arrival is held (R331, R336, R337). -/
def Eligible (s : State) (die c i : Nat) (o : PlanOp) : Prop :=
  let x := s.comm die c
  ∃ p plan a b, x.play = some p ∧ p.abort = none ∧ x.plan = some plan ∧ plan.ops[i]? = some o ∧
    p.ops[i]? = some (.waiting 0 a b) ∧ ((o.kind = 0 ∨ o.kind = 2) → s.creditsFree x c o = true) ∧
    (o.kind = 1 → (x.arrived o p.key).isSome = true)

/-- How many turns a communicator is from the round-robin pointer of its Runner (R336). -/
def turnsTo (s : State) (die c : Nat) : Nat := (c + 4 - (s.die die).turn % 4) % 4

/-- The play of a communicator has ended: its buffers are free and a word holds STATUS (R335). -/
def Ended (t : State) (die c key : Nat) (status : Word) : Prop :=
  (t.comm die c).play = none ∧ (∀ r ∈ (t.die die).ranges, r.comm ≠ c % 4) ∧ t.loadLE key 8 = status.toNat

end Sys2Proof.Claims

/-- R326 to R347: the Runner serves its inboxes (a posted command enters, KPLAN stores its plan, KCOMM binds or frees a
communicator, KPLAY starts a play with every op waiting for its predecessors and its buffers guarded). R336: it keeps to the
op that it has chosen; else, while none runs, it chooses the lowest eligible op of a communicator passed over 64 times, in
ascending id, and else of one with the highest PRIO, in turn. It runs that op (a SEND or MCAST puts its chunks on their way
and keeps its credits, a RECV writes the chunk that has arrived and returns its credit, a WAIT completes). R335: with the
last op the play ends: COMMIT marks its completed ops, STATUS is written, the bead is lowered; an aborted play ends with the
op that runs. It takes chunks, acceptances, credits, copies and abort tokens. KABRT aborts a play and gives 0.
The model's own readings in it: logs 4, 10, 14, 48, 50, 76, 80, 91. -/
def Obligations.RunnerActs : Prop :=
  ∀ (s : State), s.stuck = none →
    (∀ (n die : Nat) (p : Post), s.net.posts[n]? = some p → p.due = none → p.inbox = .runner die → runPriv p.w = true →
      runRkind p.w < 2 →
      let inbox := if runControl p.w then 4 else runComm p.w
      (s.runInbox die inbox).length < 4 →
      ∃ t cmd, exec (.runnerInboxPost n) s = .next t ∧ t.runInbox die inbox = s.runInbox die inbox ++ [cmd] ∧ cmd.w = p.w ∧
        t.net.posts = s.net.posts.eraseIdx n) ∧
    (∀ (die c : Nat) (cmd : Cmd) (rest : List Cmd), c < 4 →
      let x := s.comm die c
      (∀ u w, s.runInbox die 4 = cmd :: rest → runF cmd.w = 0 → s.kcommBind die cmd = .ok (u, w) →
        (s.runServe die 4 cmd (s.kcommBind die cmd)).stuck = none →
        ∃ t, exec (.kcommBindCmd die) s = .next t ∧ t.runInbox die 4 = (u.runInbox die 4).tail ∧ t.comm die c = u.comm die c ∧
          (w = BitVec.ofNat 64 c → (t.comm die c).bound = true ∧ (t.comm die c).play = none ∧ (t.comm die c).inbox = x.inbox)) ∧
      (s.runInbox die 4 = cmd :: rest → runF cmd.w = 1 → runComm cmd.w = c →
        (x.before cmd = true → exec (.kcommFreeCmd die c) s = .next s) ∧
        (x.before cmd = false → x.bound = true → x.admits cmd.w = true →
          (s.runServe die 4 cmd (.ok (s.kcommFree die c cmd))).stuck = none →
          ((∀ q ∈ x.inbox, runOpc q.w ≠ 0x56) → ∃ t, exec (.kcommFreeCmd die c) s = .next t ∧ t.runInbox die 4 = rest ∧
            (t.comm die c).bound = false ∧ t.runInbox die c = s.runInbox die c ∧
            ∀ ch ∈ x.staged, { ch with data := [] } ∈ t.net.credits) ∧
          ((∃ q ∈ x.inbox, runOpc q.w = 0x56) → ∃ t, exec (.kcommFreeCmd die c) s = .next t ∧ t.runInbox die 4 = rest ∧
            t.comm die c = x))) ∧
      (s.runInbox die c = cmd :: rest → s.behind die c cmd = true →
        exec (.kplanCmd die c) s = .next s ∧ exec (.play die c) s = .next s) ∧
      (s.runInbox die c = cmd :: rest → s.behind die c cmd = false →
        (∀ u w, runOpc cmd.w = 0x55 → s.kplan die c cmd = .ok (u, w) →
          (s.runServe die c cmd (s.kplan die c cmd)).stuck = none →
          ∃ t, exec (.kplanCmd die c) s = .next t ∧ t.comm die c = { u.comm die c with inbox := (u.comm die c).inbox.tail } ∧
            (w.toNat < 2 ^ 63 → ∃ plan, (t.comm die c).plan = some plan ∧ plan.ops.length = w.toNat)) ∧
        (∀ (plan : Plan) (u : State) (commit : Word) (bufs : List (Word × Nat)) (f : Foot),
          let s' := (s.dropHead die c).modComm die c fun y => { y with playNo := y.playNo + 1 }
          runOpc cmd.w = 0x56 → runF cmd.w < 2 → x.plan = some plan → x.admits cmd.w = true →
          s'.playRecord die cmd = .ok (u, commit, bufs) →
          (if commit = 0 then .ok ⟨[], 0, 0, []⟩ else u.playFoot die (s'.comm die c) (runClass cmd.w) .store commit.toNat
            ((plan.ops.length + 7) / 8)) = .ok f → (u.openFoot (s'.comm die c) f).stuck = none → s.lostRank x = false →
          (∀ a ∈ x.aborts, a.1 ≠ x.playNo + 1) →
          ∃ t p, exec (.play die c) s = .next t ∧ t.runInbox die c = rest ∧ (t.comm die c).play = some p ∧
            p.key = x.playNo + 1 ∧ p.bufs = bufs ∧ p.abort = none ∧ (p.ops = plan.ops.map fun o => .waiting o.dep s.ns 0) ∧
            ∀ (b fl len : Nat) (base : Word), plan.bufs[b]? = some fl → fl ≠ 0 → bufs[b]? = some (base, len) →
              (⟨c, x.asid, base.toNat, len, decide (fl ≠ 1)⟩ : BufferRange) ∈ (t.die die).ranges))) ∧
    (∀ die < 4, (∀ e, s.chosenOp die = some e → s.chooseOp die = s) ∧
      (s.chosenOp die = none → (s.chooseOp die).chosenOp die = s.pickOp die ∧
        ∀ c i o, s.pickOp die = some (c, i, o) → ((s.chooseOp die).die die).turn = (c + 1) % 4 ∧ ∀ c' < 4,
          ((s.chooseOp die).comm die c').passed =
            if c' ≠ c ∧ s.eligibleOps die c' ≠ [] then (s.comm die c').passed + 1 else 0) ∧
      (∀ c i o, (i, o) ∈ s.eligibleOps die c ↔ Eligible s die c i o) ∧
      (s.runnerBusy die = true → s.pickOp die = none) ∧
      (s.runnerBusy die = false → (∃ c i o, c < 4 ∧ Eligible s die c i o) → s.pickOp die ≠ none) ∧
      ∀ c i o, s.pickOp die = some (c, i, o) → c < 4 ∧ Eligible s die c i o ∧ (∀ j o', Eligible s die c j o' → i ≤ j) ∧
        ∀ c' j o', c' < 4 → c' ≠ c → Eligible s die c' j o' →
          if 64 ≤ (s.comm die c).passed then 64 ≤ (s.comm die c').passed → c < c'
          else (s.comm die c').passed < 64 ∧ (s.comm die c').prio ≤ (s.comm die c).prio ∧
            ((s.comm die c').prio = (s.comm die c).prio → turnsTo s die c < turnsTo s die c')) ∧
    (∀ (die c i : Nat) (o : PlanOp) (p : Play), s.chosenOp die = some (c, i, o) → (s.comm die c).play = some p → o.kind = 3 →
      let v := s.modDie die fun d => { d with chosen := none }
      let x := v.comm die c
      let core := p.cmd.core die
      let done := (putAt p.ops i .completed).filter OpState.isDone
      Sound s → s.mayWait = false →
      (∀ (f : Foot) (z : Xlate) (iss : Issuer) (n : Fin 8) (y : Ctx),
        let u := if p.commit = 0 then v else v.writeFoot x f (commitBytes (putAt p.ops i .completed))
        let r := runReplyTo p.cmd.w
        p.abort = none → (∀ j e, j ≠ i → p.ops[j]? = some e → e = .completed) →
        (p.commit ≠ 0 → v.playFoot die x (runClass p.cmd.w) .store p.commit.toNat ((p.ops.length + 7) / 8) = .ok f ∧
          ∀ q ∈ f.pieces, v.pieceCause q = none) →
        p.cmd.issuer = some iss → r.rkind = 0 → s.ctx iss.core r.ctxid = some y → y.loc = .slot n →
        (s.slot (slotKey iss.core n.val)).status = .live →
        u.translate core (runAsid p.cmd.w) (runClass p.cmd.w) .store (runAddr0 p.cmd.w) = .ok z → z.tt ≤ 1 →
        (z.tt = 0 → s.retiredAt z.key = false ∧ s.unreachable z.key = false) →
        ∃ t, exec (.runnerWaitOp die) s = .next t ∧ Ended t die c z.key (fields [(1, 62), (p.ops.length, 0)]) ∧
          (let b := (s.slot (slotKey iss.core n.val)).beads[2]
           (t.slot (slotKey iss.core n.val)).beads[2] = if b = 0 then 0 else b - 1) ∧
          (p.commit ≠ 0 → (pieceKeys f.pieces).Nodup → ∀ j a, (pieceKeys f.pieces)[j]? = some a →
            (a < z.key ∨ z.key + 8 ≤ a) → ∀ b < 8, (Memory.read t.mem a).getLsbD b = decide (8 * j + b < p.ops.length))) ∧
      (∀ (z : Xlate) (cause : BitVec 10) (origin : Nat), p.abort = some (cause, origin) → p.commit = 0 → p.cmd.issuer = none →
        (∀ (j : Nat) e, j ≠ i → p.ops[j]? = some e → e.isStarted = false) →
        v.translate core (runAsid p.cmd.w) (runClass p.cmd.w) .store (runAddr0 p.cmd.w) = .ok z → z.tt ≤ 1 →
        (z.tt = 0 → s.retiredAt z.key = false ∧ s.unreachable z.key = false) →
        ∃ t, exec (.runnerWaitOp die) s = .next t ∧
          Ended t die c z.key (fields [(2, 62), (cause.toNat, 48), (origin, 32), (done.length, 0)]))) ∧
    (∀ (die c i : Nat) (o : PlanOp) (p : Play), s.chosenOp die = some (c, i, o) → (s.comm die c).play = some p →
      p.abort = none → (∃ j n a b, j ≠ i ∧ p.ops[j]? = some (.waiting n a b)) →
      let v := s.modDie die fun d => { d with chosen := none }
      let x := v.comm die c
      (o.kind = 3 → ∃ t, exec (.runnerWaitOp die) s = .next t ∧ OpIs t die c i .completed ∧ t.mem = s.mem ∧
        ∀ j n a b, j ≠ i → j ∈ o.succ → p.ops[j]? = some (.waiting n a b) →
          OpIs t die c j (.waiting (n - 1) (if n = 1 then s.ns else a) b)) ∧
      (∀ u data, (o.kind = 0 ∨ o.kind = 2) → v.bufferBytes die x p o.sb o.soff o.len = .ok (u, data) → u.stuck = none → x.targets o ≠ [] →
        ∃ t, exec (if o.kind = 0 then .runnerSendOp die else .runnerMcastOp die) s = .next t ∧
          OpIs t die c i (.started (x.targets o).length) ∧
          ∀ r ∈ x.targets o, (r, o.slot, p.key) ∈ (t.comm die c).credits ∧
            ∃ ch ∈ t.net.chunks, ch.kind = .data ∧ ch.toRank = r ∧ ch.slot = o.slot ∧ ch.play = p.key ∧ ch.op = i ∧ ch.data = data) ∧
      (∀ ch u, o.kind = 1 → o.red = 0 → x.arrived o p.key = some ch → ch.data.length = o.len →
        ((v.modComm die c fun y => { y with staged := y.staged.filter fun z => z ≠ ch }).modNet fun n =>
          { n with credits := n.credits ++ [{ ch with data := [] }] }).bufferWrite die x p o.db o.doff ch.data = (u, none) → u.stuck = none →
        ∃ t, exec (.runnerRecvOp die) s = .next t ∧ OpIs t die c i .completed ∧ t.mem = u.mem ∧
          ch ∉ (t.comm die c).staged ∧ { ch with data := [] } ∈ t.net.credits) ∧
      (∀ u₁ u₂ u₃ u₄ data exps el ex, o.kind = 4 → v.bufferBytes die x p o.db o.doff o.len = .ok (u₁, data) →
        u₁.bufferBytes die x p o.sb o.soff (2 * (o.len / 64)) = .ok (u₂, exps) →
        alignBlocks ((x.plan.map Plan.head).getD 0) (o.len / 64) data exps = some (el, ex) →
        u₂.bufferWrite die x p o.db o.doff el = (u₃, none) → u₃.bufferWrite die x p o.sb o.soff ex = (u₄, none) →
        u₄.stuck = none →
        ∃ t, exec (.runnerAlignOp die) s = .next t ∧ OpIs t die c i .completed ∧ t.mem = u₄.mem)) ∧
    (∀ (n die : Nat) (ch : Chunk) (y : Comm), s.passing s.net.chunks n = some ch →
      (ch.kind = .copy → s.peerComm ch.group (ch.rank ^^^ 1) ch.comm ch.dst = some (die, y) →
        ∃ t, exec (.chunkArrival n) s = .next t ∧ (t.comm die ch.comm).copies = y.copies ++ [ch] ∧ t.mem = s.mem) ∧
      (ch.kind = .data → s.peerComm ch.group ch.toRank ch.comm ch.dst = some (die, y) →
        (y.playNo < ch.play ∨ (ch.play = y.playNo ∧ y.play.isSome = true)) →
        (y.timeout = 0 ∨ (ch.rank, ch.slot, ch.play) ∉ y.seen) →
        ∃ t, exec (.chunkArrival n) s = .next t ∧ (t.comm die ch.comm).staged = y.staged ++ [ch] ∧
          t.net.acks = s.net.acks ++ [{ ch with data := [] }] ∧ t.net.chunks = s.net.chunks.eraseIdx n)) ∧
    (∀ (n die i left : Nat) (ch : Chunk) (x : Comm) (o : PlanOp) (p : Play), s.passing s.net.acks n = some ch →
      s.peerComm ch.group ch.rank ch.comm ch.src = some (die, x) → x.play = some p → p.key = ch.play →
      x.opsOf.find? (fun e => e.1 = ch.op) = some (i, o, .started left) → 1 < left →
      ∃ t, exec (.sendAccepted n) s = .next t ∧ OpIs t die ch.comm i (.started (left - 1))) ∧
    (∀ (n die : Nat) (ch : Chunk) (x : Comm), s.passing s.net.credits n = some ch →
      s.peerComm ch.group ch.rank ch.comm ch.src = some (die, x) →
      ∃ t, exec (.creditReturn n) s = .next t ∧ (t.comm die ch.comm).credits = x.credits.filter (fun e => e ≠ (ch.toRank, ch.slot, ch.play)) ∧
        t.net.credits = s.net.credits.eraseIdx n ∧ t.mem = s.mem) ∧
    (∀ (die c i since asked : Nat) (o : PlanOp) (x : Comm) (p : Play), s.waitingRecv die c i = some (o, since, asked, x, p) →
      (∀ b, asked = 0 → since + 1000 * x.timeout ≤ s.ns → x.buddy o.peer = some b →
        ∃ t a, exec (.buddyTimeout die c i) s = .next t ∧ OpIs t die c i (.waiting 0 since (s.ns + 1)) ∧
          t.net.asks = s.net.asks ++ [a] ∧ a.rank = o.peer ∧ a.toRank = x.rank ∧ a.slot = o.slot ∧ a.play = p.key) ∧
      (asked ≠ 0 → asked + 1000 * x.timeout ≤ s.ns + 1 →
        (∀ b, x.buddy o.peer = some b → s.copyComes (x.askOf c o p i b) = false) → (s.abortPlay die c 0x331 x.rank true).stuck = none →
        ∃ t, exec (.runnerSilent die c i) s = .next t ∧ Aborted t die c 0x331 x.rank)) ∧
    (∀ (n : Nat) (a : Chunk), s.passing s.net.asks n = some a → s.copyFor a = none → exec (.buddyCopyRequest n) s = .next s) ∧
    (∀ (n die : Nat) (a q : Chunk) (y : Comm), s.passing s.net.asks n = some a →
      s.peerComm a.group (a.rank ^^^ 1) a.comm a.dst = some (die, y) → y.copies.find? (fun q => q.copyOf a) = some q →
      ∃ t z, exec (.buddyCopyRequest n) s = .next t ∧ t.net.chunks = s.net.chunks ++ [z] ∧ z.kind = .answer ∧ z.data = q.data ∧
        t.net.asks = s.net.asks.eraseIdx n) ∧
    (∀ (n die : Nat) (a : AbortToken) (y : Comm), s.net.tokens[n]? = some a →
      (∀ d ∈ s.module.down, d.1.toNat ≠ a.dst / 4) →
      s.peerComm a.group a.toRank a.comm a.dst = some (die, y) →
      (∀ p, y.play = some p → p.key = a.play → p.abort = none →
        ((s.modNet fun q => { q with tokens := q.tokens.eraseIdx n }).abortPlay die a.comm a.cause a.origin false).stuck = none →
        ∃ t, exec (.abortToken n) s = .next t ∧ Aborted t die a.comm a.cause a.origin) ∧
      (y.play = none → y.playNo < a.play → ∃ t, exec (.abortToken n) s = .next t ∧
        (t.comm die a.comm).aborts = (a.play, a.cause, a.origin) :: y.aborts)) ∧
    ∀ (k : Nat) (d : Dst) (a : Src), Ready s k [49] 0 2 → (s.slot k).cls ≠ 1 →
      let die := dieOf (keyCore k)
      let c := ((s.slot k).read a).toNat % 4
      let x := s.comm die c
      ((x.bound = false ∨ (x.play = none ∧ (2 ≤ (s.slot k).cls.toNat ∨ x.asid = (s.slot k).asid))) →
        exec (.kabrt d a) s = .next (gave s k 4 2 d stNOOBJ)) ∧
      (∀ p, x.bound = true → (2 ≤ (s.slot k).cls.toNat ∨ x.asid = (s.slot k).asid) → x.play = some p → p.abort = none →
        ((s.abortPlay die c 0x330 x.rank true).slot k).status = .live → (s.abortPlay die c 0x330 x.rank true).stuck = none →
        ∃ t, exec (.kabrt d a) s = .next t ∧ t = gave (s.abortPlay die c 0x330 x.rank true) k 4 2 d 0 ∧
          Aborted t die c 0x330 x.rank)

/-! ### Events: the memory stacks and the Reckoners -/

namespace Sys2Proof.Claims

/-- One message of KIND 6 to the destination of STKDST is on its way, with this cause and address (R364). -/
def ToldStack (s t : State) (cause pa : Nat) : Prop :=
  ∃ m, t.net.flights = s.net.flights ++ [m] ∧ m.dst = bits s.module.stkdst 19 8 ∧ m.msg.kind = 6 ∧
    bits m.msg.pay[0] 9 0 = cause ∧ m.msg.pay[1] = BitVec.ofNat 64 pa

/-- A row of a stack has been retired (R361, R365): its frame is refused from the deadline on, the log has an entry of 32
bytes at its tail unless it is full, and the enabled destinations of RETDST are told, in order, and then that of STKDST. -/
def Retired (s t : State) (st pa : Nat) : Prop :=
  let m := s.module
  let frame : Word := fields [(s.node, 48), (pa / 0x10000, 16)]
  let deadline := s.cycle + m.grace.toNat * 2 ^ 20
  let full := m.rlogCap = 0 ∨ m.rlogTail - m.rlogHead = m.rlogCap
  let key := s.own (m.rlogb.toNat + 32 * (m.rlogTail.toNat % m.rlogCap.toNat))
  let told := (m.retdst.toList.filter fun e => e.1).map fun e => e.2
  (t.stack st).rowsBad = (s.bankOf pa, Config.dramRow (pa / 8)) :: (s.stack st).rowsBad ∧
  t.module.retired = m.retired ++ [⟨pa / 0x10000, deadline⟩] ∧ t.module.rlogSeq = m.rlogSeq + 1 ∧
  (full → t.mem = s.mem ∧ t.module.rlogTail = m.rlogTail ∧ t.module.rlogOvf = (m.rlogOvf || decide (m.rlogCap ≠ 0))) ∧
  (¬full → t.module.rlogTail = m.rlogTail + 1 ∧ t.module.rlogOvf = m.rlogOvf ∧ t.loadLE key 8 = frame.toNat ∧
    t.loadLE (key + 8) 8 = deadline % 2 ^ 64 ∧ t.loadLE (key + 16) 2 = 0x380 ∧ t.loadLE (key + 18) 1 = 1 ∧
    t.loadLE (key + 19) 1 = st % 8 + 8 * (chanOf (pa / 8) % 32) ∧ t.loadLE (key + 20) 4 = m.rlogSeq.toNat ∧
    t.loadLE (key + 24) 8 = 0 ∧ ∀ a, (a < key ∨ key + 32 ≤ a) → Memory.read t.mem a = Memory.read s.mem a) ∧
  ∃ l z, t.net.flights = s.net.flights ++ l ++ [z] ∧ l.length = told.length ∧
    (∀ (i : Nat) (f : Flight) (d : BitVec 22), l[i]? = some f → told[i]? = some d → f.dst = bits d 19 8 ∧ f.msg.kind = 6 ∧
      f.msg.pay[0] = frame ∧ f.msg.pay[1] = BitVec.ofNat 64 deadline ∧ f.msg.pay[2] = m.rlogSeq.setWidth 64) ∧
    z.dst = bits m.stkdst 19 8 ∧ z.msg.kind = 6 ∧ bits z.msg.pay[0] 9 0 = 0x380 ∧ z.msg.pay[1] = BitVec.ofNat 64 pa

/-- A command with a bead reply has ended without a fault: the counter of its context, live in a slot, is one
lower (R381). -/
def BeadLowered (s t : State) (core : Nat) (r : ReplyTo) : Prop :=
  ∀ (x : Ctx) (n : Fin 8), s.ctx core r.ctxid = some x → x.loc = .slot n → (s.slot (slotKey core n.val)).status = .live →
    (t.slot (slotKey core n.val)).beads =
      (s.slot (slotKey core n.val)).beads.set r.bead
        (if (s.slot (slotKey core n.val)).beads[r.bead] = 0 then 0 else (s.slot (slotKey core n.val)).beads[r.bead] - 1)

/-- The issuing context of a command is live in its slot. -/
def IssuerLives (s : State) (core : Nat) (id : BitVec 32) : Prop :=
  ∃ x n, s.ctx core id = some x ∧ x.loc = .slot n ∧ (s.slot (slotKey core n.val)).status = .live

end Sys2Proof.Claims

/-- R353, R358, R360 to R362, R364, R365, R367: a scrub opens the row of its word, of data or parity, resolves the word by the
first step of R358 that succeeds and counts it; the sixteenth mended word of a row starts a row repair, or retires the row
where no spare is left; a row that has failed fails no second time; an uncorrectable word is marked and told. A bank that
shows a fault is repaired, or is served by rebuilding and told. A refresh is postponed or made, and a scan of the bank with
rows to read notes it. A lane repair takes a spare lane and holds the channel for 200 µs, or marks the channel failed. A
repair within its bound ends its hold, one past it is abandoned and told. A rebuilt channel leaves REBUILD, and its words that
cannot be rebuilt are marked. As a step ends, a row that has reached the threshold raises its alert: its bank is held for 4 µs,
unless a repair holds it, the refreshes postponed to the limit are issued, and the row counts afresh. An alert's end frees
its bank. The model's own readings in it: logs 10, 24, 57. -/
def Obligations.MemoryStacksAct : Prop :=
  ∀ (s : State) (st : Nat),
    let x := s.stack st
    (∀ (w : Nat), s.stuck = none → stackOf (8 * w) = st → 8 * w < hbmTop → s.heldWord w = false →
      s.poison.contains (s.own (8 * w) / 8) = false →
      let u := s.activate (s.own (8 * w))
      let x := u.stack st
      let row := Config.dramRow w
      let errors := AMap.get 0 (x.errors s.ns) row
      let sound := Config.bankFault s.tick = false
      (s.wordOut w = false → x.eccAt w = none → sound → exec (.scrub st w) s = .next u ∧ u.mem = s.mem ∧ u.net = s.net) ∧
      (s.wordOut w = false → x.eccAt w = some .correctable → sound → (u.resolveWord w).stuck = none →
        let down := x.rowDown (s.bankOf (8 * w)) row
        let fails := AMap.get 0 x.rowFail (s.bankOf (8 * w))
        ∃ t, exec (.scrub st w) s = .next t ∧ (t.stack st).eccAt w = none ∧ (t.stack st).corr = sat 24 x.corr ∧
          (t.stack st).uncorr = x.uncorr ∧ (t.stack st).subcnt = x.subcnt ∧ s.own (8 * w) / 8 ∉ t.poison ∧
          (down = true → t.stack st = { x with ecc := AMap.erase x.ecc w, corr := sat 24 x.corr } ∧ t.mem = s.mem ∧
            t.module = s.module ∧ t.net = s.net) ∧
          (down = false → errors ≠ 15 → AMap.get 0 ((t.stack st).errors s.ns) row = errors + 1 ∧ t.mem = s.mem ∧
            t.poison = s.poison ∧ t.net = s.net) ∧
          (down = false → errors = 15 → x.rows ≠ 0 → fails ≠ 3 → (t.stack st).rows = x.rows - 1 ∧
            (t.stack st).holds = x.holds ++ [⟨.row, row, s.ns + 40000, 8 * w, s.tick⟩] ∧ t.module.retired = s.module.retired) ∧
          (down = false → errors = 15 → x.rows = 0 → fails ≠ 3 → Retired s t st (8 * w) ∧ (t.stack st).holds = x.holds)) ∧
      (s.wordOut w = true → s.rebuildable w = true → sound → (u.resolveWord w).stuck = none →
        ∃ t, exec (.scrub st w) s = .next t ∧ (t.stack st).rebuilt = sat 16 x.rebuilt ∧ (t.stack st).uncorr = x.uncorr ∧
          s.own (8 * w) / 8 ∉ t.poison) ∧
      (s.wordOut w = true → s.rebuildable w = false → sound →
        ∃ t, exec (.scrub st w) s = .next t ∧ (t.stack st).uncorr = sat 16 x.uncorr ∧ (t.stack st).subcnt = x.subcnt ∧
          s.own (8 * w) / 8 ∈ t.poison ∧ t.mem = s.mem ∧ ToldStack s t 0x118 (8 * w)) ∧
      (s.wordOut w = false → x.eccAt w = none → Config.bankFault s.tick = true → x.bankOut.contains (s.bankOf (8 * w)) = false →
        ∃ t, exec (.scrub st w) s = .next t ∧ t.mem = s.mem ∧
          (x.banks ≠ 0 → (t.stack st).banks = x.banks - 1 ∧
            (t.stack st).holds = x.holds ++ [⟨.bank, s.bankOf (8 * w), s.ns + 2000000, 8 * w, s.tick⟩]) ∧
          (x.banks = 0 → s.bankOf (8 * w) ∈ (t.stack st).bankOut ∧ ToldStack s t 0x380 (8 * w)))) ∧
    (∀ (bank : Nat), bank < 1024 →
      let late := AMap.get 0 x.defer bank
      (Config.postpones s.tick = true → late < Config.postponeLimit st →
        ∃ t, exec (.refresh st bank) s = .next t ∧ AMap.get 0 (t.stack st).defer bank = late + 1 ∧ t.mem = s.mem ∧
          (t.stack st).acts = x.acts ∧ (t.stack st).queues = x.queues) ∧
      ((Config.postpones s.tick = false ∨ Config.postponeLimit st ≤ late) →
        ∃ t, exec (.refresh st bank) s = .next t ∧ AMap.get 0 (t.stack st).defer bank = 0 ∧ t.mem = s.mem ∧
          (t.stack st).holds = x.holds ∧
          (∀ set, set ≠ bank / 32 → AMap.get [] (t.stack st).queues set = AMap.get [] x.queues set) ∧
          (∀ (i : Nat) (q : Query), (AMap.get [] x.queues (bank / 32))[i]? = some q →
            ∃ l, (AMap.get [] (t.stack st).queues (bank / 32))[i]? = some { q with scans := l } ∧
              ∀ (j : Nat) (z : Scan), q.scans[j]? = some z → l[j]? =
                some (if z.bank = bank % 32 ∧ z.todo ≠ [] then { z with triple := { z.triple with held := true } } else z)) ∧
          ∀ row, AMap.get 0 (t.stack st).acts (actKey bank row) =
            if Config.windowEnds s.tick then 0 else AMap.get 0 x.acts (actKey bank row))) ∧
    (∀ (chan : Nat),
      (x.lanes ≠ 0 → ∃ t h, exec (.laneRepair st chan) s = .next t ∧ (t.stack st).lanes = x.lanes - 1 ∧
        (t.stack st).holds = x.holds ++ [h] ∧ h.kind = .lane ∧ h.region = chan % 32 ∧ h.due = s.ns + 200000 ∧ t.mem = s.mem) ∧
      (x.lanes = 0 → ∃ t, exec (.laneRepair st chan) s = .next t ∧ bit (t.stack st).failed (chan % 32) = true ∧
        (t.stack st).holds = x.holds ∧ ∃ m, t.net.flights = s.net.flights ++ [m] ∧ m.msg.kind = 6 ∧
          bits m.msg.pay[0] 9 0 = 0x380)) ∧
    (∀ (n : Nat) (h : Hold), x.holds[n]? = some h →
      (h.kind ≠ .alert → s.ns ≤ h.due → ((s.endHold st n).repaired st h).stuck = none →
        ∃ t, exec (.repairComplete st n) s = .next t ∧ (∃ l, (t.stack st).holds = x.holds.eraseIdx n ++ l) ∧
          (h.kind = .lane → h.region < 32 → bit (t.stack st).failed h.region = false ∧ bit (t.stack st).rebuild h.region = true ∧
            t.mem = s.mem) ∧
          (h.kind = .bank → AMap.get 0 (t.stack st).rowFail h.region = 0 ∧ ∀ e ∈ (t.stack st).rowsBad, e.1 ≠ h.region)) ∧
      (h.kind ≠ .alert → h.due < s.ns →
        exec (.repairComplete st n) s = .next s ∧
        ∃ t, exec (.repairTimeout st n) s = .next t ∧ (t.stack st).holds = x.holds.eraseIdx n ∧ t.mem = s.mem ∧
          ToldStack s t 0x381 h.pa ∧ (h.kind = .lane → h.region < 32 → bit (t.stack st).failed h.region = true) ∧
          (h.kind = .row → (s.bankOf h.pa, h.region) ∈ (t.stack st).rowsBad) ∧
          (h.kind = .bank → h.region ∈ (t.stack st).bankOut)) ∧
      (h.kind = .alert → ∃ t, exec (.alertEnd st n) s = .next t ∧ (t.stack st).holds = x.holds.eraseIdx n ∧ t.mem = s.mem)) ∧
    (∀ (chan : Nat), chan < 32 →
      (bit x.rebuild chan = true →
        (((s.unrebuilt st chan).foldl State.markLost s).resolveWhere st fun w => chanOf w = chan).stuck = none →
        ∃ t, exec (.rebuildComplete st chan) s = .next t ∧ bit (t.stack st).rebuild chan = false ∧
          (s.rebuilds st chan = false → x.ecc = [] → t.mem = s.mem ∧ ∀ w, 8 * w < hbmTop → stackOf (8 * w) = st →
            chanOf w = chan → s.rebuildable w = false → s.own (8 * w) / 8 ∈ t.poison)) ∧
      (bit x.rebuild chan = false → exec (.rebuildComplete st chan) s = .next s)) ∧
    (∀ (bank row : Nat), st < 8 → bank < 1024 →
      let t := s.advance
      let limit := Config.postponeLimit st
      let late := AMap.get 0 x.defer bank
      (∀ n, (actKey bank row, n) ∈ x.acts → Config.activations st ≤ n →
        (∀ m, (actKey bank row, m) ∉ (t.stack st).acts) ∧
        AMap.get 0 (t.stack st).defer bank = (if limit ≤ late then 0 else late) ∧
        ((∀ h ∈ x.holds, h.kind = .bank → h.region ≠ bank) → ⟨.alert, bank, s.ns + 4000, 0, s.tick⟩ ∈ (t.stack st).holds) ∧
        ((∃ h ∈ x.holds, h.kind = .bank ∧ h.region = bank) →
          ∀ h ∈ (t.stack st).holds, h.kind = .alert → h.region = bank → h ∈ x.holds)) ∧
      ((∀ n, (actKey bank row, n) ∈ x.acts → n < Config.activations st) →
        ∀ n, (actKey bank row, n) ∈ (t.stack st).acts ↔ (actKey bank row, n) ∈ x.acts)) ∧
    (st < 8 → (∀ e ∈ x.acts, e.2 < Config.activations st) → (s.advance.stack st).holds = x.holds)

/-- R371, R373, R376, R377, R379, R381, R382: an append that fits adds n to ROWCNT; a put first gives the bytes of rows ROWCNT to
ROWCNT + n − 1 those of the source rows and changes no other byte; a clr sets ROWCNT to 0. A query that SNAP allows
starts on the 32 banks. A scan whose next row is held pauses there and notes it. A bank whose scan has ended writes its
record, with the time since the query's arrival in LAT, and the last record ends the query. A bank with no rows gives
M = −∞, L = 0 and zeros; its first row with a finite score x gives M = x, L = 1 and the values of the row.
The model's own readings in it: logs 10, 16, 18, 62, 80. -/
def Obligations.ReckonersAct : Prop :=
  ∀ (s : State), s.stuck = none →
    (∀ (n : Nat) (y : Query),
      let set := n / 8
      let w := y.cmd.w
      let p := y.keys
      let r := rkReplyTo w
      let m := bits w[4] 15 0
      let count := s.rowCount p.pa
      let ended (t : State) : Prop := t.bankQueue set = (s.bankQueue set).filter (fun z => z.cmd.id ≠ y.cmd.id) ∧
        BeadLowered s t (rkCore w) r
      r.rkind = 0 → IssuerLives s (rkCore w) r.ctxid →
      (s.arrivingQuery n 0x5A (some 0) = some y → count + m ≤ y.limit → y.limit < 2 ^ 32 → s.appendRetired y count m = none →
        2 * p.cols ≤ p.rb → (y.limit + 31) / 32 * p.rb ≤ 0x10000 → (s.append set y true).stuck = none →
        let dst (j i : Nat) : Nat := s.own (p.pa + rowOff p.rb (count + j) + i)
        ∃ t, exec (.qapndPutCmd n) s = .next t ∧ t.rowCount p.pa = count + m ∧ ended t ∧
          (∀ j < m, ∀ i < 2 * p.cols, Memory.read t.mem (dst j i) =
            Memory.read s.mem (s.winKey (rkCore w) (bits w[5] 17 0 + j * y.stride + i))) ∧
          ∀ a, (∀ j < m, ∀ i < 2 * p.cols, a ≠ dst j i) → Memory.read t.mem a = Memory.read s.mem a) ∧
      (s.arrivingQuery n 0x5A (some 1) = some y → count + m ≤ y.limit → y.limit < 2 ^ 32 →
        ∃ t, exec (.qapndAdvCmd n) s = .next t ∧ t.rowCount p.pa = count + m ∧ ended t ∧ t.mem = s.mem) ∧
      (s.arrivingQuery n 0x5A (some 2) = some y →
        ∃ t, exec (.qapndClrCmd n) s = .next t ∧ t.rowCount p.pa = 0 ∧ ended t ∧ t.mem = s.mem)) ∧
    (∀ (n : Nat) (y : Query), s.arrivingQuery n 0x59 none = some y → rkSnap y.cmd.w ≤ s.rowCount y.keys.pa →
      rkSnap y.cmd.w ≤ s.rowCount y.vals.pa → s.module.retired = [] → s.module.down = [] →
      (∀ r ∈ s.net.reqs, r.arrived = false) → Sound s →
      ∃ t z, exec (.reckonerQuery n) s = .next t ∧ z ∈ t.bankQueue (n / 8) ∧ z.cmd = y.cmd ∧ z.q = y.q ∧ z.taken = true ∧
        z.arrived = s.ns ∧ z.left = List.range 32 ∧ z.scans.map (·.bank) = List.range 32) ∧
    (∀ (set bank : Nat) (y : Query) (z : Scan),
      let w := y.cmd.w
      let off := rkBlock w + 0x40 + queryLen y.keys.cols + recordLen y.vals.cols * bank
      let at_ (i : Nat) : Nat := s.winKey (rkCore w) (off + i)
      let rest := y.left.filter fun x => x ≠ bank
      let b := z.triple.record (y.rows bank).length y.vals.cols (y.lat s.ns)
      s.scanning set bank = some y → y.scans.find? (fun z => z.bank = bank) = some z → z.fail = none →
      (z.todo = [] → z.triple.acc.length = y.vals.cols →
        let wrote (t : State) : Prop :=
          (∀ i v, b[i]? = some v → Memory.read t.mem (at_ i) = v) ∧
          (∀ i < 4, Memory.read t.mem (at_ (12 + i)) =
            BitVec.ofNat 8 (Nat.min ((s.ns - y.arrived) / 16) 0xFFFFFFFF / 256 ^ i)) ∧
          ∀ a, (∀ i < b.length, a ≠ at_ i) → Memory.read t.mem a = Memory.read s.mem a
        b.length = recordLen y.vals.cols ∧
        (rest ≠ [] → ∃ t u, exec (.record set bank) s = .next t ∧ u ∈ t.bankQueue set ∧ u.cmd = y.cmd ∧ u.left = rest ∧ wrote t) ∧
        (rest = [] → (rkReplyTo w).rkind = 0 → IssuerLives s (rkCore w) (rkReplyTo w).ctxid →
          ∃ t, exec (.record set bank) s = .next t ∧
            t.bankQueue set = (s.bankQueue set).filter (fun z => z.cmd.id ≠ y.cmd.id) ∧
            BeadLowered s t (rkCore w) (rkReplyTo w) ∧ wrote t)) ∧
      (∀ j js, z.todo = j :: js → z.got = [] → 0 < y.keys.cols → s.retiredIn (s.rowKey y.keys j 0) = false →
        s.heldRange (s.rowKey y.keys j 0) 1 = true →
        ∃ t u, exec (.record set bank) s = .next t ∧ u ∈ t.bankQueue set ∧ u.cmd = y.cmd ∧ u.left = y.left ∧
          u.scans.find? (fun z => z.bank = bank) = some { z with triple := { z.triple with held := true } } ∧ t.mem = s.mem)) ∧
    (∀ (y : Query) (b lat : Nat), y.rows b = [] → (y.scan b).todo = [] ∧ (y.scan b).triple.record 0 y.vals.cols lat =
      leBytes 0xFF800000 4 ++ List.replicate 8 0 ++ leBytes lat 4 ++ List.replicate 16 0xFF ++
        List.replicate (recordLen y.vals.cols - 32) 0) ∧
    ∀ (anch : Int) (scale : Val) (q k : List Val) (v : List Nat) (x : Val), (scoreOf anch q k).bad = false →
      x = scaled anch (scoreOf anch q k).sum scale → x.isFin = true → (∀ c ∈ v, (decodeElem fBF16 c).isFin = true) →
      let t := (Triple.start v.length).row anch scale q k (v.map (decodeElem fBF16))
      t.stop = false ∧ t.m = x ∧ valQ t.l = 1 ∧ t.acc.map valQ = v.map fun c => valQ (decodeElem fBF16 c)

/-! ### Events: the system die and the links -/

/-- R4, R145, R166, R392 to R394, R397 to R399, R401: a frame is dropped and counted, kept in the default ring, or delivered by
the action of its flow table entry, and dropped and counted where it cannot be. A port counts bad frames and pauses the
enabled priorities. A CRC replay changes nothing. A path goes down and returns; after 1 ms its node is lost and waiting
accesses get 0x3C1. A module reset measures the firmware's images and starts its actors, or stops with the code of
its stage, with what the straps fix. An attestation report holds the nonce, the node id and the digests of those images. The five clocks, and what a system
core stores to registers, HBM and inbox lines, have their effects.
The model's own readings in it: logs 17, 31, 58, 60, 66, 78, 80. -/
def Obligations.SystemDieActs : Prop :=
  ∀ (s : State), s.stuck = none →
    (∀ (f : Frame) (act no : Nat) (e : BitVec 512), s.flowAction f = (act, no, e) →
      let dropped : State := { s with sdie := { s.sdie with drops := s.sdie.drops + 1 } }
      let index := AMap.get 0 s.sdie.rxIndex no
      (9216 < f.bytes.length → act = 0) ∧
      (act = 0 → exec (.frameDrop f) s = .next dropped) ∧
      (act = 3 → exec (.frameDefault f) s = .next { s with sdie := { s.sdie with defRing := s.sdie.defRing ++ [f] } }) ∧
      (act = 1 →
        (s.frameLaunch no e f.bytes = none → exec (.frameLaunch f) s = .next dropped) ∧
        (∀ t, s.frameLaunch no e f.bytes = some t → t.stuck = none → exec (.frameLaunch f) s = .next t ∧
          AMap.get 0 t.sdie.rxIndex no = index + 1 ∧ t.sdie.drops = s.sdie.drops ∧
          ∃ w, (t.launchQueue (Config.flowQueue e / 16 % 4) (Config.flowQueue e % 16)).frames =
            (s.launchQueue (Config.flowQueue e / 16 % 4) (Config.flowQueue e % 16)).frames ++
              [(w, Config.flowBase e + BitVec.ofNat 64 (bufferSize e * (index % Config.flowCount e)),
                BitVec.ofNat 64 f.bytes.length)])) ∧
      (act = 2 →
        (s.frameCopy no e f.bytes = none → exec (.frameCopy f) s = .next dropped) ∧
        (∀ t, s.frameCopy no e f.bytes = some t → t.stuck = none → exec (.frameCopy f) s = .next t ∧
          AMap.get 0 t.sdie.rxIndex no = index + 1 ∧ t.sdie.drops = s.sdie.drops)) ∧
      ((Config.flowCount e ≤ index ∧ Config.ringFull s.tick = true) ∨ bufferSize e < f.bytes.length →
        s.frameLaunch no e f.bytes = none ∧ s.frameCopy no e f.bytes = none)) ∧
    (∀ (port : Fin 8) (enable : BitVec 8) (pause : Vector (BitVec 16) 8),
      let old := s.sdie.ports[port]
      (∃ t, exec (.badFcsFrame port.val) s = .next t ∧ t.sdie.ports = s.sdie.ports.set port { old with badFcs := old.badFcs + 1 } ∧
        t.mem = s.mem ∧ t.sdie.defRing = s.sdie.defRing) ∧
      ∃ t, exec (.priorityFlowControlFrame port.val enable pause) s = .next t ∧ t.mem = s.mem ∧
        (∀ q : Fin 8, q ≠ port → t.sdie.ports[q] = s.sdie.ports[q]) ∧
        (t.sdie.ports[port]).badFcs = old.badFcs ∧
        ∀ i : Fin 8, (t.sdie.ports[port]).paused[i] =
          if bit enable i.val then s.ns + (pause[i].toNat * 64 + 99) / 100 else old.paused[i]) ∧
    (∀ link, exec (.crcReplay link) s = .next s) ∧
    (∀ (node : BitVec 16), node.toNat ≠ s.node →
      ((∀ e ∈ s.module.down, e.1 ≠ node) →
        exec (.linkDown node true) s = .next { s with module := { s.module with down := s.module.down ++ [(node, s.ns)] } }) ∧
      (∃ t, exec (.linkDown node false) s = .next t ∧ (∀ e, e ∈ t.module.down ↔ e ∈ s.module.down ∧ e.1 ≠ node) ∧
        node ∉ t.module.lost ∧ t.mem = s.mem ∧ t.net = s.net) ∧
      (∀ since, (node, since) ∈ s.module.down → since + 1000000 ≤ s.ns → node ∉ s.module.lost →
        (∀ d c, (s.comm d c).play = none) →
        ∃ t, exec (.nodeUnreachable node) s = .next t ∧ t.module.lost = s.module.lost ++ [node] ∧ t.mem = s.mem ∧
          (∀ r, r ∈ t.net.reqs ↔ r ∈ s.net.reqs ∧ nodeOf r.key ≠ node.toNat) ∧
          ∀ r ∈ s.net.reqs, nodeOf r.key = node.toNat → ∀ c, r.cont = some c → r.answer c 0x3C1 0 ∈ t.net.answers)) ∧
    (∀ (b : Boot),
      (1 ≤ b.failStage.toNat → b.failStage.toNat ≤ 4 → ∃ t, exec (.moduleReset b) s = .next t ∧
        t.sdie.bootstat = b.failStage ∧ t.cores = [] ∧ t.slots = [] ∧ t.cycle = 0 ∧
        t.module.nodeX = b.nodeX ∧ t.module.nodeY = b.nodeY ∧ t.sdie.source = b.source ∧ t.sdie.pcie = b.pcie) ∧
      (b.failStage = 0 → b.actors = [] → b.image = [] →
        ∃ t, exec (.moduleReset b) s = .next t ∧ t.sdie.bootstat = 0 ∧ t.cores = [] ∧ t.slots = [] ∧
          t.cycle = 0 ∧ t.module.nodeX = b.nodeX ∧ t.module.nodeY = b.nodeY ∧ t.module.grace = b.grace ∧
          t.sdie.measured = some (b.images.map sha384) ∧ t.module.retired = [] ∧ t.net.reqs = [] ∧ t.net.flights = [] ∧ t.sdie.reserved = b.reserved ∧
          (AMap.get .reset t.sdie.harts 0).started = true ∧ (AMap.get .reset t.sdie.harts 0).entry = b.entry ∧
          (∀ i : Fin 8, (t.stack i.val).ccn = b.ccn[i] ∧ (t.stack i.val).scrubp = b.scrubp) ∧
          (Memory.wf s.mem = true → ∀ a, nodeOf a ≠ t.node →
            nodeOf a ≠ s.node → Memory.read t.mem a = Memory.read s.mem a)) ∧
      (∀ (a : BootActor) (n : Nat),
        let r : Creation := ⟨a.desc, a.gen, a.act, 3, a.rres, a.colour, a.mb0q, 0, a.asid⟩
        b.failStage = 0 → b.actors = [a] → a.core < 4096 → n < 8 → r.fits = true →
        (bootState { b with actors := [] } (s.sdie.boot + 1)).placeFor a.core r = .ok n →
        ∃ t, exec (.moduleReset b) s = .next t ∧ (t.slot (slotKey a.core n)).status = .live ∧
          (t.slot (slotKey a.core n)).cls = 3 ∧ (t.slot (slotKey a.core n)).desc = a.desc ∧
          (t.slot (slotKey a.core n)).jobcol = a.colour ∧ (t.slot (slotKey a.core n)).asid = a.asid) ∧
      (4 < b.failStage.toNat → exec (.moduleReset b) s = .next s)) ∧
    (∀ nonce other : BitVec 384, ∃ t u r v, exec (.attestationReport nonce) s = .next t ∧ t.sdie.report = some r ∧
      exec (.attestationReport other) s = .next u ∧ u.sdie.report = some v ∧ r.1.setWidth 384 = nonce ∧
      r.1.extractLsb' 1536 16 = BitVec.ofNat 16 s.node ∧ r.1.extractLsb' 384 1664 = v.1.extractLsb' 384 1664 ∧
      (∀ m, s.sdie.measured = some m → ∀ i : Fin 3, r.1.extractLsb' (384 * (i.val + 1)) 384 = m[i]) ∧
      t.mem = s.mem ∧ t.module = s.module) ∧
    (∀ (mhz : BitVec 10) (therm pwr : Bool),
      (mhz.toNat ∈ [940, 880, 820, 760, 700] → ∃ t, exec (.clockChange mhz therm pwr) s = .next t ∧ t.sdie.mhz = mhz ∧
        t.sdie.therm = therm ∧ t.sdie.pwr = pwr ∧ t.mem = s.mem ∧
        t.sdie.throt = if mhz.toNat < s.sdie.mhz.toNat ∧ s.sdie.throt ≠ 0xFFFFFFFF#32 then s.sdie.throt + 1 else s.sdie.throt) ∧
      (mhz.toNat ∉ [940, 880, 820, 760, 700] → exec (.clockChange mhz therm pwr) s = .next s)) ∧
    ∀ (hart : Nat) (value : Word),
      (∃ t, exec (.registerWrite ⟨hart, 0xFF00004810⟩ 3 value) s = .next t ∧ t.module.grace = value.setWidth 32 ∧ t.mem = s.mem) ∧
      (∃ t, exec (.registerWrite ⟨hart, 0xFF00004818⟩ 3 value) s = .next t ∧ t.module.stkdst = value.setWidth 22 ∧ t.mem = s.mem) ∧
      (∃ t, exec (.registerWrite ⟨hart, 0xFF00000000⟩ 3 value) s = .next t ∧ t.module.policy = value.setWidth 12 ∧ t.mem = s.mem) ∧
      (∃ t, exec (.registerWrite ⟨hart, 0xFF00004F00⟩ 3 value) s = .next t ∧ t.sdie.evtcfg = value.setWidth 16 ∧ t.mem = s.mem) ∧
      (∀ st < 8, ∃ t, exec (.registerWrite ⟨hart, 0xFF00004000 + 0x100 * st⟩ 3 value) s = .next t ∧
        (t.stack st).scrubp = value.extractLsb' 13 8 ∧ (t.stack st).ccn = (s.stack st).ccn ∧ t.mem = s.mem) ∧
      (∀ (pa : Nat) (size : BitVec 2),
        let n := 2 ^ size.toNat
        (pa % n ≠ 0 → exec (.registerWrite ⟨hart, pa⟩ size value) s = .next s) ∧
        (pa % n = 0 → pa < hbmEnd → s.retiredAt (s.own pa) = false → s.waitsAt (s.own pa) n = none →
          ∃ t, exec (.registerWrite ⟨hart, pa⟩ size value) s = .next t ∧ t.loadLE (s.own pa) n = value.toNat % 256 ^ n ∧
            ∀ a, (a < s.own pa ∨ s.own pa + n ≤ a) → Memory.read t.mem a = Memory.read s.mem a)) ∧
      ∀ (pa c : Nat) (inbox : Inbox),
        let h := AMap.get .reset s.sdie.harts (hart % 32)
        let w := (if h.postLine = some (pa / 64) then h.postBuf else .replicate 8 0).set 7 value
        windowCore pa = some c → pa % 64 = 56 → inboxOf c (windowOff pa) = some inbox →
        ∃ t p, exec (.registerWrite ⟨hart, pa⟩ 3 value) s = .next t ∧ t.net.posts = s.net.posts ++ [p] ∧ p.inbox = inbox ∧
          p.poster = none ∧ p.w = stamp inbox (Config.systemAsid s.tick) true w ∧ t.mem = s.mem

/-! ### Traps -/

namespace Sys2Proof.Claims

/-- The privileged instructions (R95). -/
noncomputable def privileged (d : Dst) (a b : Src) : List Instr :=
  [.tlbiAll d, .tlbiAsid d a, .tlbiRange d a b, .ctxEvict d a b, .ctxRestore d a b, .ctxFreeze d a, .ctxResume d a b,
   .ctxDestroy d a b, .ctxPreempt d a]

end Sys2Proof.Claims

/-- R64, R65, R95, R184, R210, R211, R214 to R219: bits that are no instruction trap with their cause, or enter the bound emulation
routine: EPC, EINST, EMU and PC are set, 2 cycles charged, and no register changes. A trap writes the fault CSRs and
charges 1 cycle. In class 2 and 3, and under policy ignore at CORE, the activation ends; under retry it goes on after
1 µs; under kill self the actor is removed, as it is by a 0x001 inside a routine. 0x020 of a privileged instruction in class
0 or 1 freezes the actor. A charge past the budget traps with 0x210 and charges nothing. Each is told to TRAPDST.
The model's own readings in it: logs 6, 15, 80, 94. -/
def Obligations.TrapsAreTaken : Prop :=
  ∀ (s : State) (k : Nat), s.cur = some k → s.stuck = none →
    let sl := s.slot k
    let fits (n : Nat) : Prop := sl.budget = 0 ∨ sl.used.toNat + n ≤ sl.budget.toNat
    sl.status = .live →
    (∀ (d : Dst) (a b : Src) (i : Instr), i ∈ privileged d a b → s.hasFeat 0 = true → sl.cls.toNat < 2 → fits 1 →
      ∃ t, exec i s = .next t ∧ Denied s t k) ∧
    (∀ (need : Need) (len cost : Nat) (g : PredNo) (body : Nat → Act), (∀ f ∈ need.feats, s.hasFeat f = true) →
      (need.priv = true → 2 ≤ sl.cls.toNat) → (need.engine = true → sl.cls ≠ 1) → sl.pred g = true → ¬fits cost →
      sl.retries = [] → (2 ≤ sl.cls.toNat ∨ s.policy scCore (keyCore k) 2 = 0) →
      ∃ t, s.run need len cost g body = .next t ∧ Recorded sl (t.slot k) 0x210 0 0 0 ∧ ToldTrap s t k 0x210 0 false 0 ∧
        SameRegs sl (t.slot k) ∧ (t.slot k).phase = .idle ∧ (t.slot k).used = sl.used ∧ (t.slot k).status = .live) ∧
    ∀ (raw : BitVec 32) (cause : BitVec 10) (key : EmuKey), cause.toNat ∈ [1, 2, 3, 4] →
      (s.gate raw = none ∧ (cause = 1 → key = emuOf raw) ∨ ∃ f, s.gate raw = some f ∧ cause = 1 ∧ key = (2, f)) →
      (∀ kind code pc, cause = 1 → sl.emu.getLsbD 0 = false → s.emuBinding sl key = some (kind, code, pc) → kind < 4 → code < 1024 →
        fits 2 →
        ∃ t, exec (.unassignedEncoding raw cause) s = .next t ∧ SameRegs sl (t.slot k) ∧ (t.slot k).epc = sl.pc ∧
          (t.slot k).einst = sl.inst ∧ (t.slot k).emu = BitVec.ofNat 64 (1 + 2 * kind + 2 ^ 16 * code) ∧ (t.slot k).pc = pc ∧
          (t.slot k).used = sl.used + 2 ∧ (t.slot k).phase = sl.phase ∧ t.mem = s.mem ∧ t.net = s.net) ∧
      let taken := s.takeTrap k cause 0 (if cause = 1 then some key else none)
      (cause = 1 → sl.emu.getLsbD 0 = true → fits 1 → taken.stuck = none →
        ∃ t, exec (.unassignedEncoding raw cause) s = .next t ∧ (t.slot k).status ≠ .live) ∧
      (sl.emu.getLsbD 0 = false → (cause = 1 → s.emuBinding sl key = none) → fits 1 →
        (sl.retries = [] → (2 ≤ sl.cls.toNat ∨ s.policy scCore (keyCore k) 0 = 0) →
          ∃ t, exec (.unassignedEncoding raw cause) s = .next t ∧ Recorded sl (t.slot k) cause.toNat 0 0 0 ∧
            ToldTrap s t k cause.toNat 0 false 0 ∧ SameRegs sl (t.slot k) ∧ (t.slot k).phase = .idle ∧
            (t.slot k).used = sl.used + 1 ∧ (t.slot k).status = .live) ∧
        (sl.retries = [] → sl.cls.toNat < 2 → s.policy scCore (keyCore k) 0 = 1 →
          ∃ t, exec (.unassignedEncoding raw cause) s = .next t ∧ Recorded sl (t.slot k) cause.toNat 1 0 0 ∧
            ToldTrap s t k cause.toNat 1 false 0 ∧ SameRegs sl (t.slot k) ∧ (t.slot k).pc = sl.pc ∧
            (t.slot k).phase = .blocked (.retryAt (s.ns + 1000))) ∧
        (sl.cls.toNat < 2 → s.policy scCore (keyCore k) 0 = 2 → taken.stuck = none →
          ∃ t, exec (.unassignedEncoding raw cause) s = .next t ∧ (t.slot k).status ≠ .live))

/-! ### Decoding -/

namespace Sys2Proof.Claims

/-- The four bytes of a word and the two of a halfword, lowest address first (R51). -/
def wordOf (w : Nat) : List Byte := bytesLE w 4
def halfOf (w : Nat) : List Byte := bytesLE w 2

end Sys2Proof.Claims

/-- R51, R53, R55, R61, R64, R66, R67: words written out in the spec decode to the instructions that they stand for, or are
refused with the cause that it gives. -/
def Obligations.SampleWordsDecode : Prop :=
  decodeBytes (wordOf 0x70830501) = .ok (.add (.s 5) (.s 6) (.q 2) 3, 4) ∧
  decodeBytes (wordOf 0x10830501) = .ok (.add (.s 5) (.s 6) (.q 2) 0, 4) ∧
  decodeBytes (wordOf 0x1E820949) = .ok (.ld (.s 9) (.s 4) 2 0b11110 0, 4) ∧
  decodeBytes (wordOf 0xFFFFE033) = .ok (.j 0xFFFFE0, 4) ∧
  decodeBytes (halfOf 0xECDE) = .ok (.zaddi 3 0b111011, 2) ∧
  decodeBytes (wordOf 0xFEE1C321) = .ok (.addi (.q 3) (.q 3) 0x3FB, 4) ∧
  decodeBytes (wordOf 0x4E000049) = .ok (.ld (.s 0) (.s 0) 0 14 2, 4) ∧
  decodeBytes (wordOf 0x000000C9) = .error .undefOp ∧
  decodeBytes (wordOf 0x40A70049) = .error .badOperand

/-- R51, R53, R55, R61, R66, R67: the bytes that the encoder gives a well-formed instruction decode to that instruction, whatever
bytes follow it: no bit of an encoding is dropped. -/
def Obligations.DecodeEncodeRoundTrip : Prop :=
  ∀ (i : Instr) (rest : List Byte), i.wf = true → i.len ≠ 0 →
    decodeBytes (bytesLE i.raw.toNat i.len ++ rest) = .ok (i, i.len)

/-- R51, R64: an instruction that the decoder reads is well formed, its length is the one that bit 0 of its first halfword
gives, and its encoding is the bytes read; majors from 0x60 on and the 16-bit operations 0 and above 0x18 are refused with
0x001. -/
def Obligations.DecodedInstructionsAreEncodings : Prop :=
  (∀ (bs : List Byte) (i : Instr) (n : Nat), decodeBytes bs = .ok (i, n) →
    i.wf = true ∧ i.len = n ∧ bytesLE i.raw.toNat n = bs.take n ∧
    ∃ b, bs[0]? = some b ∧ n = if bit b 0 then 4 else 2) ∧
  (∀ w : BitVec 32, bit w 0 = true → 0x60 ≤ bits w 7 1 → decodeBytes (bytesLE w.toNat 4) = .error .undefOp) ∧
  ∀ h : BitVec 16, bit h 0 = false → (bits h 5 1 = 0 ∨ 0x18 < bits h 5 1) → decodeBytes (bytesLE h.toNat 2) = .error .undefOp

/-! ### The machine -/

/-- R51, R52, R64, R65, R138: where the page of the PC can be fetched and its halfwords be read, the step of a running core is
the execution of the instruction that they decode to, with the raw bits kept for FINST and the translation in the TLB, and
then time passes; bits that decode to nothing run as UNASSIGNED_ENCODING; a page that cannot be fetched, or a halfword that
cannot be read, traps with the halfword's address. A halfword that reaches its owner sound and unpoisoned is the two bytes
of memory; a retired frame, a lost node and poison refuse it. An event's step is the event; one that holds keep from its
effect is an outside event still. As a step ends only the clocks, the next ops of the Runners, the next mover, and the errors,
activation counts, alerts and postponed refreshes of the stacks change.
The model's own readings in it: logs 3, 4, 8, 24, 35, 73, 80. -/
def Obligations.StepRunsDecodedInstruction : Prop :=
  ∀ (s : State),
    (∀ (c k : Nat), s.mover = .core c → s.cur = some k →
      let sl := s.slot k
      let pc := sl.pc
      let at_ (u : State) (pc : BitVec 52) : Except (BitVec 10) Xlate := u.translate (keyCore k) sl.asid sl.cls .fetch (pc.setWidth 64)
      let faults (e : BitVec 10) (pc : BitVec 52) : Prop := step s = .next (s.fetchFault k e (pc.setWidth 64)).advance
      let ran (u : State) (bs : List Byte) : Prop :=
        let v := u.fetched k (BitVec.ofNat 32 (leNat bs))
        (∀ i n, decodeBytes bs = .ok (i, n) → n = bs.length ∧ step s = advanced (exec i v)) ∧
        ∀ f, decodeBytes bs = .error f → step s = advanced (exec (.unassignedEncoding (BitVec.ofNat 32 (leNat bs)) f.cause) v)
      (∀ e, at_ s pc = .error e → faults e pc) ∧
      ∀ x, at_ s pc = .ok x →
        (∀ e, (s.fillTlb (keyCore k) x).readHalf x x.key = .error e → faults e pc) ∧
        ∀ u lo, (s.fillTlb (keyCore k) x).readHalf x x.key = .ok (u, lo) →
          let long := leNat lo % 2 = 1
          (¬long → ran u lo) ∧
          (long → pc.toNat % 0x10000 ≠ 0xFFFE →
            (∀ e, u.readHalf x (x.key + 2) = .error e → faults e (pc + 2)) ∧
            ∀ v hi, u.readHalf x (x.key + 2) = .ok (v, hi) → ran v (lo ++ hi)) ∧
          (long → pc.toNat % 0x10000 = 0xFFFE →
            (∀ e, at_ u (pc + 2) = .error e → faults e (pc + 2)) ∧
            ∀ y, at_ u (pc + 2) = .ok y →
              (∀ e, (u.fillTlb (keyCore k) y).readHalf y y.key = .error e → faults e (pc + 2)) ∧
              ∀ v hi, (u.fillTlb (keyCore k) y).readHalf y y.key = .ok (v, hi) → ran v (lo ++ hi))) ∧
    (∀ (x : Xlate) (key : Nat),
      (s.retiredAt key = true → s.readHalf x key = .error 0x382) ∧
      (s.retiredAt key = false → s.unreachable key = true → s.readHalf x key = .error 0x3C1) ∧
      (s.retiredAt key = false → s.unreachable key = false → Sound s →
        (s.poisoned key 2 = false → s.readHalf x key = .ok (s.open key 2, Memory.bytes s.mem key 2)) ∧
        (s.poisoned key 2 = true → x.tol = false → s.readHalf x key = .error 0x118))) ∧
    (∀ e, s.mover = .event e →
      ((s.mayWait = false ∨ exec e s ≠ .next s) → step s = advanced (exec e s)) ∧
      (exec e s = .next s → s.mayWait = true → step s = .next { s with inputs := e :: s.inputs }.advance)) ∧
    (s.mover = .idle → step s = .next s.advance) ∧
    (∀ c, s.mover = .core c → s.cur = none → step s = .next s.advance) ∧
    (∀ st, ∃ e a h d, s.advance.stack st = { s.stack st with ecc := e, acts := a, holds := h, defer := d } ∧
      (Config.upset s.tick = none → e = (s.stack st).ecc)) ∧
    ∃ m l d h, s.advance = { s with
      hbm := h, stuck := none, dies := d, tick := s.tick + 1, cycle := s.cycle + Config.elapsedCycles s.tick,
      ns := s.ns + Config.elapsedNs s.tick, mover := m, inputs := l } ∧
      (Config.elapsedCycles s.tick = 0 → Config.elapsedNs s.tick = 0 → d = s.dies)

/-- R96, R102, R173, R213, R216, R220, R227, R238, R363, R365, R366, R401: the module right after reset, as far as the spec gives it: no actor is
live, every vector entry, policy and destination register is 0, the next context id is 1, the accumulator tiles are
poisoned with HWX 0x8000, the features are those of FEAT0, SCRUBP is 24, GRACE 893, the log's next SEQ 1, no frame is
retired, the clock is 940 MHz and CYCLE is 0. Memory is in its canonical form.
The model's own readings in it: log 2. -/
def Obligations.ResetLeavesTheGivenValues : Prop :=
  let s := State.reset
  (∀ k, (s.slot k).status = .empty) ∧
  (∀ c, (s.core c).vect = .replicate 256 0 ∧ (s.core c).fown = .replicate 16 0 ∧ (s.core c).cpol = 0 ∧ (s.core c).trapdst = 0 ∧
    (s.core c).ctxNext = 1 ∧ (s.core c).ctxs = [] ∧ (s.core c).guards = [] ∧ (s.core c).running = none ∧
    ∀ n : Fin 4, (s.core c).tiles[n].poison = true ∧ (s.core c).tiles[n].hwx = 0x8000#16) ∧
  (∀ n < 512, s.hasFeat n = (decide (n < 64) && (0x000F010700001F0F#64).getLsbD n)) ∧
  (∀ st, (s.stack st).scrubp = 24 ∧ (s.stack st).failed = 0 ∧ (s.stack st).rebuild = 0 ∧ (s.stack st).ecc = [] ∧
    (s.stack st).rowcnt = [] ∧ (s.stack st).holds = []) ∧
  (∀ c, (s.colour c).strm = false ∧ (s.colour c).preempting = false ∧ (s.colour c).epoch = 0) ∧
  s.module.policy = 0 ∧ s.module.grace = 893 ∧ s.module.rlogSeq = 1 ∧ s.module.rlogCap = 0 ∧ s.module.retired = [] ∧
  s.module.stkdst = 0 ∧ s.sdie.mhz = 940 ∧ s.sdie.bootstat = 0 ∧ s.cycle = 0 ∧ s.poison = [] ∧
  Memory.wf s.mem = true ∧ s.stuck = none

/-- The canonical form of memory (addresses rising, no byte listed that reads as an unlisted one) is kept by every step of
every state that has it; and no access waits between two steps.
The model's own readings in it: logs 2, 80. -/
def Obligations.EveryStepKeepsMemoryCanonical : Prop :=
  ∀ (s t : State), Memory.wf s.mem = true → step s = .next t → Memory.wf t.mem = true ∧ t.stuck = none
end

