-- ==== Sys2Proof/Laws/Maps.lean ====
section
/-! SUPPORT. What reading a sparse map gives after a write. -/

namespace Sys2Proof.Machine

@[simp] theorem AMap.get_nil {α : Type} (d : α) (k : Nat) : AMap.get d [] k = d := rfl

/-- Reading after a write: the new value at its key, the old one elsewhere. -/
theorem AMap.get_set {α : Type} (d v : α) (m : AMap α) (k j : Nat) :
    AMap.get d (AMap.set m k v) j = if k = j then v else AMap.get d m j := by
  induction m with
  | nil => simp [AMap.set, AMap.get]
  | cons e m ih =>
    obtain ⟨i, w⟩ := e
    by_cases h : i = k
    · subst h; by_cases hj : i = j <;> simp [AMap.set, AMap.get, hj]
    · by_cases hl : k < i
      · by_cases hj : k = j
        · subst hj; simp [AMap.set, AMap.get, h, hl]
        · simp [AMap.set, AMap.get, h, hl, hj]
      · by_cases hi : i = j
        · subst hi; simp [AMap.set, AMap.get, h, hl, Ne.symm h]
        · simp [AMap.set, AMap.get, h, hl, hi, ih]

@[simp] theorem AMap.get_set_same {α : Type} (d v : α) (m : AMap α) (k : Nat) :
    AMap.get d (AMap.set m k v) k = v := by simp [AMap.get_set]

theorem AMap.get_set_other {α : Type} (d v : α) (m : AMap α) {k j : Nat} (h : k ≠ j) :
    AMap.get d (AMap.set m k v) j = AMap.get d m j := by simp [AMap.get_set, h]

/-- Reading after a removal: the default at the removed key, the old value elsewhere. -/
theorem AMap.get_erase {α : Type} (d : α) (m : AMap α) (k j : Nat) :
    AMap.get d (AMap.erase m k) j = if k = j then d else AMap.get d m j := by
  induction m with
  | nil => simp [AMap.erase, AMap.get]
  | cons e m ih =>
    obtain ⟨i, w⟩ := e
    unfold AMap.erase at ih ⊢
    by_cases h : i = k
    · subst h; by_cases hj : i = j <;> simp_all [AMap.get]
    · by_cases hi : i = j
      · subst hi; simp [AMap.get, h, Ne.symm h]
      · simpa [AMap.get, h, hi] using ih

end Sys2Proof.Machine
end

