-- ==== Sys2Proof/Laws/State.lean ====
section
/-! SUPPORT. What each update of the state leaves alone, field by field, and what reading a part gives after
that part has been replaced. -/

namespace Sys2Proof.Machine

@[simp] theorem State.setSlot_mem (s : State) (k : Nat) (v : Slot) : (s.setSlot k v).mem = s.mem := rfl
@[simp] theorem State.setSlot_poison (s : State) (k : Nat) (v : Slot) : (s.setSlot k v).poison = s.poison := rfl
@[simp] theorem State.setSlot_cores (s : State) (k : Nat) (v : Slot) : (s.setSlot k v).cores = s.cores := rfl
@[simp] theorem State.setSlot_clusters (s : State) (k : Nat) (v : Slot) : (s.setSlot k v).clusters = s.clusters := rfl
@[simp] theorem State.setSlot_dies (s : State) (k : Nat) (v : Slot) : (s.setSlot k v).dies = s.dies := rfl
@[simp] theorem State.setSlot_hbm (s : State) (k : Nat) (v : Slot) : (s.setSlot k v).hbm = s.hbm := rfl
@[simp] theorem State.setSlot_module (s : State) (k : Nat) (v : Slot) : (s.setSlot k v).module = s.module := rfl
@[simp] theorem State.setSlot_sdie (s : State) (k : Nat) (v : Slot) : (s.setSlot k v).sdie = s.sdie := rfl
@[simp] theorem State.setSlot_net (s : State) (k : Nat) (v : Slot) : (s.setSlot k v).net = s.net := rfl
@[simp] theorem State.setSlot_cycle (s : State) (k : Nat) (v : Slot) : (s.setSlot k v).cycle = s.cycle := rfl
@[simp] theorem State.setSlot_ns (s : State) (k : Nat) (v : Slot) : (s.setSlot k v).ns = s.ns := rfl
@[simp] theorem State.setSlot_tick (s : State) (k : Nat) (v : Slot) : (s.setSlot k v).tick = s.tick := rfl
@[simp] theorem State.setSlot_nextId (s : State) (k : Nat) (v : Slot) : (s.setSlot k v).nextId = s.nextId := rfl
@[simp] theorem State.setSlot_mover (s : State) (k : Nat) (v : Slot) : (s.setSlot k v).mover = s.mover := rfl
@[simp] theorem State.setSlot_inputs (s : State) (k : Nat) (v : Slot) : (s.setSlot k v).inputs = s.inputs := rfl
@[simp] theorem State.setSlot_stuck (s : State) (k : Nat) (v : Slot) : (s.setSlot k v).stuck = s.stuck := rfl

@[simp] theorem State.setCore_mem (s : State) (c : Nat) (v : Core) : (s.setCore c v).mem = s.mem := rfl
@[simp] theorem State.setCore_poison (s : State) (c : Nat) (v : Core) : (s.setCore c v).poison = s.poison := rfl
@[simp] theorem State.setCore_slots (s : State) (c : Nat) (v : Core) : (s.setCore c v).slots = s.slots := rfl
@[simp] theorem State.setCore_clusters (s : State) (c : Nat) (v : Core) : (s.setCore c v).clusters = s.clusters := rfl
@[simp] theorem State.setCore_dies (s : State) (c : Nat) (v : Core) : (s.setCore c v).dies = s.dies := rfl
@[simp] theorem State.setCore_hbm (s : State) (c : Nat) (v : Core) : (s.setCore c v).hbm = s.hbm := rfl
@[simp] theorem State.setCore_module (s : State) (c : Nat) (v : Core) : (s.setCore c v).module = s.module := rfl
@[simp] theorem State.setCore_sdie (s : State) (c : Nat) (v : Core) : (s.setCore c v).sdie = s.sdie := rfl
@[simp] theorem State.setCore_net (s : State) (c : Nat) (v : Core) : (s.setCore c v).net = s.net := rfl
@[simp] theorem State.setCore_cycle (s : State) (c : Nat) (v : Core) : (s.setCore c v).cycle = s.cycle := rfl
@[simp] theorem State.setCore_ns (s : State) (c : Nat) (v : Core) : (s.setCore c v).ns = s.ns := rfl
@[simp] theorem State.setCore_tick (s : State) (c : Nat) (v : Core) : (s.setCore c v).tick = s.tick := rfl
@[simp] theorem State.setCore_nextId (s : State) (c : Nat) (v : Core) : (s.setCore c v).nextId = s.nextId := rfl
@[simp] theorem State.setCore_mover (s : State) (c : Nat) (v : Core) : (s.setCore c v).mover = s.mover := rfl
@[simp] theorem State.setCore_inputs (s : State) (c : Nat) (v : Core) : (s.setCore c v).inputs = s.inputs := rfl
@[simp] theorem State.setCore_stuck (s : State) (c : Nat) (v : Core) : (s.setCore c v).stuck = s.stuck := rfl

@[simp] theorem State.modSlot_mem (s : State) (k : Nat) (f : Slot → Slot) : (s.modSlot k f).mem = s.mem := rfl
@[simp] theorem State.modSlot_poison (s : State) (k : Nat) (f : Slot → Slot) : (s.modSlot k f).poison = s.poison := rfl
@[simp] theorem State.modSlot_cores (s : State) (k : Nat) (f : Slot → Slot) : (s.modSlot k f).cores = s.cores := rfl
@[simp] theorem State.modSlot_clusters (s : State) (k : Nat) (f : Slot → Slot) : (s.modSlot k f).clusters = s.clusters := rfl
@[simp] theorem State.modSlot_dies (s : State) (k : Nat) (f : Slot → Slot) : (s.modSlot k f).dies = s.dies := rfl
@[simp] theorem State.modSlot_hbm (s : State) (k : Nat) (f : Slot → Slot) : (s.modSlot k f).hbm = s.hbm := rfl
@[simp] theorem State.modSlot_module (s : State) (k : Nat) (f : Slot → Slot) : (s.modSlot k f).module = s.module := rfl
@[simp] theorem State.modSlot_sdie (s : State) (k : Nat) (f : Slot → Slot) : (s.modSlot k f).sdie = s.sdie := rfl
@[simp] theorem State.modSlot_net (s : State) (k : Nat) (f : Slot → Slot) : (s.modSlot k f).net = s.net := rfl
@[simp] theorem State.modSlot_cycle (s : State) (k : Nat) (f : Slot → Slot) : (s.modSlot k f).cycle = s.cycle := rfl
@[simp] theorem State.modSlot_ns (s : State) (k : Nat) (f : Slot → Slot) : (s.modSlot k f).ns = s.ns := rfl
@[simp] theorem State.modSlot_tick (s : State) (k : Nat) (f : Slot → Slot) : (s.modSlot k f).tick = s.tick := rfl
@[simp] theorem State.modSlot_nextId (s : State) (k : Nat) (f : Slot → Slot) : (s.modSlot k f).nextId = s.nextId := rfl
@[simp] theorem State.modSlot_mover (s : State) (k : Nat) (f : Slot → Slot) : (s.modSlot k f).mover = s.mover := rfl
@[simp] theorem State.modSlot_inputs (s : State) (k : Nat) (f : Slot → Slot) : (s.modSlot k f).inputs = s.inputs := rfl
@[simp] theorem State.modSlot_stuck (s : State) (k : Nat) (f : Slot → Slot) : (s.modSlot k f).stuck = s.stuck := rfl

@[simp] theorem State.modCore_mem (s : State) (c : Nat) (f : Core → Core) : (s.modCore c f).mem = s.mem := rfl
@[simp] theorem State.modCore_poison (s : State) (c : Nat) (f : Core → Core) : (s.modCore c f).poison = s.poison := rfl
@[simp] theorem State.modCore_slots (s : State) (c : Nat) (f : Core → Core) : (s.modCore c f).slots = s.slots := rfl
@[simp] theorem State.modCore_clusters (s : State) (c : Nat) (f : Core → Core) : (s.modCore c f).clusters = s.clusters := rfl
@[simp] theorem State.modCore_dies (s : State) (c : Nat) (f : Core → Core) : (s.modCore c f).dies = s.dies := rfl
@[simp] theorem State.modCore_hbm (s : State) (c : Nat) (f : Core → Core) : (s.modCore c f).hbm = s.hbm := rfl
@[simp] theorem State.modCore_module (s : State) (c : Nat) (f : Core → Core) : (s.modCore c f).module = s.module := rfl
@[simp] theorem State.modCore_sdie (s : State) (c : Nat) (f : Core → Core) : (s.modCore c f).sdie = s.sdie := rfl
@[simp] theorem State.modCore_net (s : State) (c : Nat) (f : Core → Core) : (s.modCore c f).net = s.net := rfl
@[simp] theorem State.modCore_cycle (s : State) (c : Nat) (f : Core → Core) : (s.modCore c f).cycle = s.cycle := rfl
@[simp] theorem State.modCore_ns (s : State) (c : Nat) (f : Core → Core) : (s.modCore c f).ns = s.ns := rfl
@[simp] theorem State.modCore_tick (s : State) (c : Nat) (f : Core → Core) : (s.modCore c f).tick = s.tick := rfl
@[simp] theorem State.modCore_nextId (s : State) (c : Nat) (f : Core → Core) : (s.modCore c f).nextId = s.nextId := rfl
@[simp] theorem State.modCore_mover (s : State) (c : Nat) (f : Core → Core) : (s.modCore c f).mover = s.mover := rfl
@[simp] theorem State.modCore_inputs (s : State) (c : Nat) (f : Core → Core) : (s.modCore c f).inputs = s.inputs := rfl
@[simp] theorem State.modCore_stuck (s : State) (c : Nat) (f : Core → Core) : (s.modCore c f).stuck = s.stuck := rfl

@[simp] theorem State.modCluster_mem (s : State) (c : Nat) (f : Cluster → Cluster) : (s.modCluster c f).mem = s.mem := rfl
@[simp] theorem State.modCluster_poison (s : State) (c : Nat) (f : Cluster → Cluster) : (s.modCluster c f).poison = s.poison := rfl
@[simp] theorem State.modCluster_cores (s : State) (c : Nat) (f : Cluster → Cluster) : (s.modCluster c f).cores = s.cores := rfl
@[simp] theorem State.modCluster_slots (s : State) (c : Nat) (f : Cluster → Cluster) : (s.modCluster c f).slots = s.slots := rfl
@[simp] theorem State.modCluster_dies (s : State) (c : Nat) (f : Cluster → Cluster) : (s.modCluster c f).dies = s.dies := rfl
@[simp] theorem State.modCluster_hbm (s : State) (c : Nat) (f : Cluster → Cluster) : (s.modCluster c f).hbm = s.hbm := rfl
@[simp] theorem State.modCluster_module (s : State) (c : Nat) (f : Cluster → Cluster) : (s.modCluster c f).module = s.module := rfl
@[simp] theorem State.modCluster_sdie (s : State) (c : Nat) (f : Cluster → Cluster) : (s.modCluster c f).sdie = s.sdie := rfl
@[simp] theorem State.modCluster_net (s : State) (c : Nat) (f : Cluster → Cluster) : (s.modCluster c f).net = s.net := rfl
@[simp] theorem State.modCluster_cycle (s : State) (c : Nat) (f : Cluster → Cluster) : (s.modCluster c f).cycle = s.cycle := rfl
@[simp] theorem State.modCluster_ns (s : State) (c : Nat) (f : Cluster → Cluster) : (s.modCluster c f).ns = s.ns := rfl
@[simp] theorem State.modCluster_tick (s : State) (c : Nat) (f : Cluster → Cluster) : (s.modCluster c f).tick = s.tick := rfl
@[simp] theorem State.modCluster_nextId (s : State) (c : Nat) (f : Cluster → Cluster) : (s.modCluster c f).nextId = s.nextId := rfl
@[simp] theorem State.modCluster_mover (s : State) (c : Nat) (f : Cluster → Cluster) : (s.modCluster c f).mover = s.mover := rfl
@[simp] theorem State.modCluster_inputs (s : State) (c : Nat) (f : Cluster → Cluster) : (s.modCluster c f).inputs = s.inputs := rfl
@[simp] theorem State.modCluster_stuck (s : State) (c : Nat) (f : Cluster → Cluster) : (s.modCluster c f).stuck = s.stuck := rfl

@[simp] theorem State.modDie_mem (s : State) (c : Nat) (f : Die → Die) : (s.modDie c f).mem = s.mem := rfl
@[simp] theorem State.modDie_poison (s : State) (c : Nat) (f : Die → Die) : (s.modDie c f).poison = s.poison := rfl
@[simp] theorem State.modDie_cores (s : State) (c : Nat) (f : Die → Die) : (s.modDie c f).cores = s.cores := rfl
@[simp] theorem State.modDie_slots (s : State) (c : Nat) (f : Die → Die) : (s.modDie c f).slots = s.slots := rfl
@[simp] theorem State.modDie_clusters (s : State) (c : Nat) (f : Die → Die) : (s.modDie c f).clusters = s.clusters := rfl
@[simp] theorem State.modDie_hbm (s : State) (c : Nat) (f : Die → Die) : (s.modDie c f).hbm = s.hbm := rfl
@[simp] theorem State.modDie_module (s : State) (c : Nat) (f : Die → Die) : (s.modDie c f).module = s.module := rfl
@[simp] theorem State.modDie_sdie (s : State) (c : Nat) (f : Die → Die) : (s.modDie c f).sdie = s.sdie := rfl
@[simp] theorem State.modDie_net (s : State) (c : Nat) (f : Die → Die) : (s.modDie c f).net = s.net := rfl
@[simp] theorem State.modDie_cycle (s : State) (c : Nat) (f : Die → Die) : (s.modDie c f).cycle = s.cycle := rfl
@[simp] theorem State.modDie_ns (s : State) (c : Nat) (f : Die → Die) : (s.modDie c f).ns = s.ns := rfl
@[simp] theorem State.modDie_tick (s : State) (c : Nat) (f : Die → Die) : (s.modDie c f).tick = s.tick := rfl
@[simp] theorem State.modDie_nextId (s : State) (c : Nat) (f : Die → Die) : (s.modDie c f).nextId = s.nextId := rfl
@[simp] theorem State.modDie_mover (s : State) (c : Nat) (f : Die → Die) : (s.modDie c f).mover = s.mover := rfl
@[simp] theorem State.modDie_inputs (s : State) (c : Nat) (f : Die → Die) : (s.modDie c f).inputs = s.inputs := rfl
@[simp] theorem State.modDie_stuck (s : State) (c : Nat) (f : Die → Die) : (s.modDie c f).stuck = s.stuck := rfl

@[simp] theorem State.modStack_mem (s : State) (c : Nat) (f : Stack → Stack) : (s.modStack c f).mem = s.mem := rfl
@[simp] theorem State.modStack_poison (s : State) (c : Nat) (f : Stack → Stack) : (s.modStack c f).poison = s.poison := rfl
@[simp] theorem State.modStack_cores (s : State) (c : Nat) (f : Stack → Stack) : (s.modStack c f).cores = s.cores := rfl
@[simp] theorem State.modStack_slots (s : State) (c : Nat) (f : Stack → Stack) : (s.modStack c f).slots = s.slots := rfl
@[simp] theorem State.modStack_clusters (s : State) (c : Nat) (f : Stack → Stack) : (s.modStack c f).clusters = s.clusters := rfl
@[simp] theorem State.modStack_dies (s : State) (c : Nat) (f : Stack → Stack) : (s.modStack c f).dies = s.dies := rfl
@[simp] theorem State.modStack_module (s : State) (c : Nat) (f : Stack → Stack) : (s.modStack c f).module = s.module := rfl
@[simp] theorem State.modStack_sdie (s : State) (c : Nat) (f : Stack → Stack) : (s.modStack c f).sdie = s.sdie := rfl
@[simp] theorem State.modStack_net (s : State) (c : Nat) (f : Stack → Stack) : (s.modStack c f).net = s.net := rfl
@[simp] theorem State.modStack_cycle (s : State) (c : Nat) (f : Stack → Stack) : (s.modStack c f).cycle = s.cycle := rfl
@[simp] theorem State.modStack_ns (s : State) (c : Nat) (f : Stack → Stack) : (s.modStack c f).ns = s.ns := rfl
@[simp] theorem State.modStack_tick (s : State) (c : Nat) (f : Stack → Stack) : (s.modStack c f).tick = s.tick := rfl
@[simp] theorem State.modStack_nextId (s : State) (c : Nat) (f : Stack → Stack) : (s.modStack c f).nextId = s.nextId := rfl
@[simp] theorem State.modStack_mover (s : State) (c : Nat) (f : Stack → Stack) : (s.modStack c f).mover = s.mover := rfl
@[simp] theorem State.modStack_inputs (s : State) (c : Nat) (f : Stack → Stack) : (s.modStack c f).inputs = s.inputs := rfl
@[simp] theorem State.modStack_stuck (s : State) (c : Nat) (f : Stack → Stack) : (s.modStack c f).stuck = s.stuck := rfl

@[simp] theorem State.modNet_mem (s : State) (f : Net → Net) : (s.modNet f).mem = s.mem := rfl
@[simp] theorem State.modNet_poison (s : State) (f : Net → Net) : (s.modNet f).poison = s.poison := rfl
@[simp] theorem State.modNet_cores (s : State) (f : Net → Net) : (s.modNet f).cores = s.cores := rfl
@[simp] theorem State.modNet_slots (s : State) (f : Net → Net) : (s.modNet f).slots = s.slots := rfl
@[simp] theorem State.modNet_clusters (s : State) (f : Net → Net) : (s.modNet f).clusters = s.clusters := rfl
@[simp] theorem State.modNet_dies (s : State) (f : Net → Net) : (s.modNet f).dies = s.dies := rfl
@[simp] theorem State.modNet_hbm (s : State) (f : Net → Net) : (s.modNet f).hbm = s.hbm := rfl
@[simp] theorem State.modNet_module (s : State) (f : Net → Net) : (s.modNet f).module = s.module := rfl
@[simp] theorem State.modNet_sdie (s : State) (f : Net → Net) : (s.modNet f).sdie = s.sdie := rfl
@[simp] theorem State.modNet_cycle (s : State) (f : Net → Net) : (s.modNet f).cycle = s.cycle := rfl
@[simp] theorem State.modNet_ns (s : State) (f : Net → Net) : (s.modNet f).ns = s.ns := rfl
@[simp] theorem State.modNet_tick (s : State) (f : Net → Net) : (s.modNet f).tick = s.tick := rfl
@[simp] theorem State.modNet_nextId (s : State) (f : Net → Net) : (s.modNet f).nextId = s.nextId := rfl
@[simp] theorem State.modNet_mover (s : State) (f : Net → Net) : (s.modNet f).mover = s.mover := rfl
@[simp] theorem State.modNet_inputs (s : State) (f : Net → Net) : (s.modNet f).inputs = s.inputs := rfl
@[simp] theorem State.modNet_stuck (s : State) (f : Net → Net) : (s.modNet f).stuck = s.stuck := rfl

@[simp] theorem State.modModule_mem (s : State) (f : Module → Module) : (s.modModule f).mem = s.mem := rfl
@[simp] theorem State.modModule_poison (s : State) (f : Module → Module) : (s.modModule f).poison = s.poison := rfl
@[simp] theorem State.modModule_cores (s : State) (f : Module → Module) : (s.modModule f).cores = s.cores := rfl
@[simp] theorem State.modModule_slots (s : State) (f : Module → Module) : (s.modModule f).slots = s.slots := rfl
@[simp] theorem State.modModule_clusters (s : State) (f : Module → Module) : (s.modModule f).clusters = s.clusters := rfl
@[simp] theorem State.modModule_dies (s : State) (f : Module → Module) : (s.modModule f).dies = s.dies := rfl
@[simp] theorem State.modModule_hbm (s : State) (f : Module → Module) : (s.modModule f).hbm = s.hbm := rfl
@[simp] theorem State.modModule_sdie (s : State) (f : Module → Module) : (s.modModule f).sdie = s.sdie := rfl
@[simp] theorem State.modModule_net (s : State) (f : Module → Module) : (s.modModule f).net = s.net := rfl
@[simp] theorem State.modModule_cycle (s : State) (f : Module → Module) : (s.modModule f).cycle = s.cycle := rfl
@[simp] theorem State.modModule_ns (s : State) (f : Module → Module) : (s.modModule f).ns = s.ns := rfl
@[simp] theorem State.modModule_tick (s : State) (f : Module → Module) : (s.modModule f).tick = s.tick := rfl
@[simp] theorem State.modModule_nextId (s : State) (f : Module → Module) : (s.modModule f).nextId = s.nextId := rfl
@[simp] theorem State.modModule_mover (s : State) (f : Module → Module) : (s.modModule f).mover = s.mover := rfl
@[simp] theorem State.modModule_inputs (s : State) (f : Module → Module) : (s.modModule f).inputs = s.inputs := rfl
@[simp] theorem State.modModule_stuck (s : State) (f : Module → Module) : (s.modModule f).stuck = s.stuck := rfl

@[simp] theorem State.modSDie_mem (s : State) (f : SDie → SDie) : (s.modSDie f).mem = s.mem := rfl
@[simp] theorem State.modSDie_poison (s : State) (f : SDie → SDie) : (s.modSDie f).poison = s.poison := rfl
@[simp] theorem State.modSDie_cores (s : State) (f : SDie → SDie) : (s.modSDie f).cores = s.cores := rfl
@[simp] theorem State.modSDie_slots (s : State) (f : SDie → SDie) : (s.modSDie f).slots = s.slots := rfl
@[simp] theorem State.modSDie_clusters (s : State) (f : SDie → SDie) : (s.modSDie f).clusters = s.clusters := rfl
@[simp] theorem State.modSDie_dies (s : State) (f : SDie → SDie) : (s.modSDie f).dies = s.dies := rfl
@[simp] theorem State.modSDie_hbm (s : State) (f : SDie → SDie) : (s.modSDie f).hbm = s.hbm := rfl
@[simp] theorem State.modSDie_module (s : State) (f : SDie → SDie) : (s.modSDie f).module = s.module := rfl
@[simp] theorem State.modSDie_net (s : State) (f : SDie → SDie) : (s.modSDie f).net = s.net := rfl
@[simp] theorem State.modSDie_cycle (s : State) (f : SDie → SDie) : (s.modSDie f).cycle = s.cycle := rfl
@[simp] theorem State.modSDie_ns (s : State) (f : SDie → SDie) : (s.modSDie f).ns = s.ns := rfl
@[simp] theorem State.modSDie_tick (s : State) (f : SDie → SDie) : (s.modSDie f).tick = s.tick := rfl
@[simp] theorem State.modSDie_nextId (s : State) (f : SDie → SDie) : (s.modSDie f).nextId = s.nextId := rfl
@[simp] theorem State.modSDie_mover (s : State) (f : SDie → SDie) : (s.modSDie f).mover = s.mover := rfl
@[simp] theorem State.modSDie_inputs (s : State) (f : SDie → SDie) : (s.modSDie f).inputs = s.inputs := rfl
@[simp] theorem State.modSDie_stuck (s : State) (f : SDie → SDie) : (s.modSDie f).stuck = s.stuck := rfl

@[simp] theorem State.bump_mem (s : State) : (s.bump).mem = s.mem := rfl
@[simp] theorem State.bump_poison (s : State) : (s.bump).poison = s.poison := rfl
@[simp] theorem State.bump_cores (s : State) : (s.bump).cores = s.cores := rfl
@[simp] theorem State.bump_slots (s : State) : (s.bump).slots = s.slots := rfl
@[simp] theorem State.bump_clusters (s : State) : (s.bump).clusters = s.clusters := rfl
@[simp] theorem State.bump_dies (s : State) : (s.bump).dies = s.dies := rfl
@[simp] theorem State.bump_hbm (s : State) : (s.bump).hbm = s.hbm := rfl
@[simp] theorem State.bump_module (s : State) : (s.bump).module = s.module := rfl
@[simp] theorem State.bump_sdie (s : State) : (s.bump).sdie = s.sdie := rfl
@[simp] theorem State.bump_net (s : State) : (s.bump).net = s.net := rfl
@[simp] theorem State.bump_cycle (s : State) : (s.bump).cycle = s.cycle := rfl
@[simp] theorem State.bump_ns (s : State) : (s.bump).ns = s.ns := rfl
@[simp] theorem State.bump_tick (s : State) : (s.bump).tick = s.tick := rfl
@[simp] theorem State.bump_mover (s : State) : (s.bump).mover = s.mover := rfl
@[simp] theorem State.bump_inputs (s : State) : (s.bump).inputs = s.inputs := rfl
@[simp] theorem State.bump_stuck (s : State) : (s.bump).stuck = s.stuck := rfl

@[simp] theorem State.modNet_net (s : State) (f : Net → Net) : (s.modNet f).net = f s.net := rfl
@[simp] theorem State.modModule_module (s : State) (f : Module → Module) : (s.modModule f).module = f s.module := rfl
@[simp] theorem State.modSDie_sdie (s : State) (f : SDie → SDie) : (s.modSDie f).sdie = f s.sdie := rfl
@[simp] theorem State.bump_nextId (s : State) : s.bump.nextId = s.nextId + 1 := rfl

@[simp] theorem State.setSlot_core (s : State) (k : Nat) (v : Slot) (j : Nat) : (s.setSlot k v).core j = s.core j := rfl
@[simp] theorem State.setSlot_cluster (s : State) (k : Nat) (v : Slot) (j : Nat) : (s.setSlot k v).cluster j = s.cluster j := rfl
@[simp] theorem State.setSlot_die (s : State) (k : Nat) (v : Slot) (j : Nat) : (s.setSlot k v).die j = s.die j := rfl
@[simp] theorem State.setSlot_stack (s : State) (k : Nat) (v : Slot) (j : Nat) : (s.setSlot k v).stack j = s.stack j := rfl

@[simp] theorem State.setCore_slot (s : State) (c : Nat) (v : Core) (j : Nat) : (s.setCore c v).slot j = s.slot j := rfl
@[simp] theorem State.setCore_cluster (s : State) (c : Nat) (v : Core) (j : Nat) : (s.setCore c v).cluster j = s.cluster j := rfl
@[simp] theorem State.setCore_die (s : State) (c : Nat) (v : Core) (j : Nat) : (s.setCore c v).die j = s.die j := rfl
@[simp] theorem State.setCore_stack (s : State) (c : Nat) (v : Core) (j : Nat) : (s.setCore c v).stack j = s.stack j := rfl

@[simp] theorem State.modSlot_core (s : State) (k : Nat) (f : Slot → Slot) (j : Nat) : (s.modSlot k f).core j = s.core j := rfl
@[simp] theorem State.modSlot_cluster (s : State) (k : Nat) (f : Slot → Slot) (j : Nat) : (s.modSlot k f).cluster j = s.cluster j := rfl
@[simp] theorem State.modSlot_die (s : State) (k : Nat) (f : Slot → Slot) (j : Nat) : (s.modSlot k f).die j = s.die j := rfl
@[simp] theorem State.modSlot_stack (s : State) (k : Nat) (f : Slot → Slot) (j : Nat) : (s.modSlot k f).stack j = s.stack j := rfl

@[simp] theorem State.modCore_slot (s : State) (c : Nat) (f : Core → Core) (j : Nat) : (s.modCore c f).slot j = s.slot j := rfl
@[simp] theorem State.modCore_cluster (s : State) (c : Nat) (f : Core → Core) (j : Nat) : (s.modCore c f).cluster j = s.cluster j := rfl
@[simp] theorem State.modCore_die (s : State) (c : Nat) (f : Core → Core) (j : Nat) : (s.modCore c f).die j = s.die j := rfl
@[simp] theorem State.modCore_stack (s : State) (c : Nat) (f : Core → Core) (j : Nat) : (s.modCore c f).stack j = s.stack j := rfl

@[simp] theorem State.modCluster_slot (s : State) (c : Nat) (f : Cluster → Cluster) (j : Nat) : (s.modCluster c f).slot j = s.slot j := rfl
@[simp] theorem State.modCluster_core (s : State) (c : Nat) (f : Cluster → Cluster) (j : Nat) : (s.modCluster c f).core j = s.core j := rfl
@[simp] theorem State.modCluster_die (s : State) (c : Nat) (f : Cluster → Cluster) (j : Nat) : (s.modCluster c f).die j = s.die j := rfl
@[simp] theorem State.modCluster_stack (s : State) (c : Nat) (f : Cluster → Cluster) (j : Nat) : (s.modCluster c f).stack j = s.stack j := rfl

@[simp] theorem State.modDie_slot (s : State) (c : Nat) (f : Die → Die) (j : Nat) : (s.modDie c f).slot j = s.slot j := rfl
@[simp] theorem State.modDie_core (s : State) (c : Nat) (f : Die → Die) (j : Nat) : (s.modDie c f).core j = s.core j := rfl
@[simp] theorem State.modDie_cluster (s : State) (c : Nat) (f : Die → Die) (j : Nat) : (s.modDie c f).cluster j = s.cluster j := rfl
@[simp] theorem State.modDie_stack (s : State) (c : Nat) (f : Die → Die) (j : Nat) : (s.modDie c f).stack j = s.stack j := rfl

@[simp] theorem State.modStack_slot (s : State) (c : Nat) (f : Stack → Stack) (j : Nat) : (s.modStack c f).slot j = s.slot j := rfl
@[simp] theorem State.modStack_core (s : State) (c : Nat) (f : Stack → Stack) (j : Nat) : (s.modStack c f).core j = s.core j := rfl
@[simp] theorem State.modStack_cluster (s : State) (c : Nat) (f : Stack → Stack) (j : Nat) : (s.modStack c f).cluster j = s.cluster j := rfl
@[simp] theorem State.modStack_die (s : State) (c : Nat) (f : Stack → Stack) (j : Nat) : (s.modStack c f).die j = s.die j := rfl

@[simp] theorem State.modNet_slot (s : State) (f : Net → Net) (j : Nat) : (s.modNet f).slot j = s.slot j := rfl
@[simp] theorem State.modNet_core (s : State) (f : Net → Net) (j : Nat) : (s.modNet f).core j = s.core j := rfl
@[simp] theorem State.modNet_cluster (s : State) (f : Net → Net) (j : Nat) : (s.modNet f).cluster j = s.cluster j := rfl
@[simp] theorem State.modNet_die (s : State) (f : Net → Net) (j : Nat) : (s.modNet f).die j = s.die j := rfl
@[simp] theorem State.modNet_stack (s : State) (f : Net → Net) (j : Nat) : (s.modNet f).stack j = s.stack j := rfl

@[simp] theorem State.modModule_slot (s : State) (f : Module → Module) (j : Nat) : (s.modModule f).slot j = s.slot j := rfl
@[simp] theorem State.modModule_core (s : State) (f : Module → Module) (j : Nat) : (s.modModule f).core j = s.core j := rfl
@[simp] theorem State.modModule_cluster (s : State) (f : Module → Module) (j : Nat) : (s.modModule f).cluster j = s.cluster j := rfl
@[simp] theorem State.modModule_die (s : State) (f : Module → Module) (j : Nat) : (s.modModule f).die j = s.die j := rfl
@[simp] theorem State.modModule_stack (s : State) (f : Module → Module) (j : Nat) : (s.modModule f).stack j = s.stack j := rfl

@[simp] theorem State.modSDie_slot (s : State) (f : SDie → SDie) (j : Nat) : (s.modSDie f).slot j = s.slot j := rfl
@[simp] theorem State.modSDie_core (s : State) (f : SDie → SDie) (j : Nat) : (s.modSDie f).core j = s.core j := rfl
@[simp] theorem State.modSDie_cluster (s : State) (f : SDie → SDie) (j : Nat) : (s.modSDie f).cluster j = s.cluster j := rfl
@[simp] theorem State.modSDie_die (s : State) (f : SDie → SDie) (j : Nat) : (s.modSDie f).die j = s.die j := rfl
@[simp] theorem State.modSDie_stack (s : State) (f : SDie → SDie) (j : Nat) : (s.modSDie f).stack j = s.stack j := rfl

@[simp] theorem State.bump_slot (s : State) (j : Nat) : (s.bump).slot j = s.slot j := rfl
@[simp] theorem State.bump_core (s : State) (j : Nat) : (s.bump).core j = s.core j := rfl
@[simp] theorem State.bump_cluster (s : State) (j : Nat) : (s.bump).cluster j = s.cluster j := rfl
@[simp] theorem State.bump_die (s : State) (j : Nat) : (s.bump).die j = s.die j := rfl
@[simp] theorem State.bump_stack (s : State) (j : Nat) : (s.bump).stack j = s.stack j := rfl


/-- Reading a slot after one has been replaced. -/
theorem State.slot_setSlot (s : State) (k j : Nat) (v : Slot) :
    (s.setSlot k v).slot j = if k = j then v else s.slot j := AMap.get_set _ _ _ _ _

@[simp] theorem State.setSlot_slot_same (s : State) (k : Nat) (v : Slot) : (s.setSlot k v).slot k = v := by
  simp [State.slot_setSlot]

theorem State.slot_modSlot (s : State) (k j : Nat) (f : Slot → Slot) :
    (s.modSlot k f).slot j = if k = j then f (s.slot k) else s.slot j := State.slot_setSlot _ _ _ _

@[simp] theorem State.modSlot_slot_same (s : State) (k : Nat) (f : Slot → Slot) :
    (s.modSlot k f).slot k = f (s.slot k) := by simp [State.slot_modSlot]

/-- Reading a core after one has been replaced. -/
theorem State.core_setCore (s : State) (c j : Nat) (v : Core) :
    (s.setCore c v).core j = if c = j then v else s.core j := AMap.get_set _ _ _ _ _

@[simp] theorem State.setCore_core_same (s : State) (c : Nat) (v : Core) : (s.setCore c v).core c = v := by
  simp [State.core_setCore]

theorem State.core_modCore (s : State) (c j : Nat) (f : Core → Core) :
    (s.modCore c f).core j = if c = j then f (s.core c) else s.core j := State.core_setCore _ _ _ _

@[simp] theorem State.modCore_core_same (s : State) (c : Nat) (f : Core → Core) :
    (s.modCore c f).core c = f (s.core c) := by simp [State.core_modCore]

/-- Reading a cluster after one has been changed: the numbers count modulo 16. -/
theorem State.cluster_modCluster (s : State) (c j : Nat) (f : Cluster → Cluster) :
    (s.modCluster c f).cluster j = if c % 16 = j % 16 then f (s.cluster c) else s.cluster j := by
  simp only [State.cluster, State.modCluster, ix, Fin.getElem_fin, Vector.getElem_set]

/-- Reading a die after one has been changed: the numbers count modulo 4. -/
theorem State.die_modDie (s : State) (c j : Nat) (f : Die → Die) :
    (s.modDie c f).die j = if c % 4 = j % 4 then f (s.die c) else s.die j := by
  simp only [State.die, State.modDie, ix, Fin.getElem_fin, Vector.getElem_set]

/-- Reading a stack after one has been changed: the numbers count modulo 8. -/
theorem State.stack_modStack (s : State) (c j : Nat) (f : Stack → Stack) :
    (s.modStack c f).stack j = if c % 8 = j % 8 then f (s.stack c) else s.stack j := by
  simp only [State.stack, State.modStack, ix, Fin.getElem_fin, Vector.getElem_set]

/-- The second of two writes at one key stands. -/
theorem AMap.set_set {α : Type} (m : AMap α) (k : Nat) (v w : α) : AMap.set (AMap.set m k v) k w = AMap.set m k w := by
  induction m with
  | nil => simp [AMap.set]
  | cons e m ih =>
    obtain ⟨j, u⟩ := e
    by_cases h : j = k
    · simp [AMap.set, h]
    · by_cases hl : k < j <;> simp [AMap.set, h, hl, ih]

@[simp] theorem State.setSlot_setSlot (s : State) (k : Nat) (v w : Slot) :
    (s.setSlot k v).setSlot k w = s.setSlot k w := by simp [State.setSlot, AMap.set_set]

@[simp] theorem State.setCore_setCore (s : State) (c : Nat) (v w : Core) :
    (s.setCore c v).setCore c w = s.setCore c w := by simp [State.setCore, AMap.set_set]

theorem State.modSlot_eq (s : State) (k : Nat) (f : Slot → Slot) : s.modSlot k f = s.setSlot k (f (s.slot k)) := rfl

theorem State.modCore_eq (s : State) (c : Nat) (f : Core → Core) : s.modCore c f = s.setCore c (f (s.core c)) := rfl

/-- Changes of one slot in a row are one change. -/
theorem State.modSlot_modSlot (s : State) (k : Nat) (f g : Slot → Slot) :
    (s.modSlot k f).modSlot k g = s.modSlot k fun sl => g (f sl) := by simp [State.modSlot_eq]

end Sys2Proof.Machine
end

