-- ==== Sys2Proof/Laws/Run.lean ====
section
/-! SUPPORT. What running one instruction can come to. -/

namespace Sys2Proof.Machine

/-- What holds where the decode checks, the guard and the budget let the body of an instruction run. -/
structure Runs (s : State) (k : Nat) (need : Need) (cost : Nat) (g : PredNo) : Prop where
  cur   : s.cur = some k
  feats : ∀ f ∈ need.feats, s.hasFeat f = true
  cls   : ¬ ((need.priv = true ∧ (s.slot k).cls.toNat < 2) ∨ (need.engine = true ∧ (s.slot k).cls = 1#2))
  guard : (s.slot k).pred g = true
  fits  : (s.slot k).over cost = false

/-- An instruction whose checks pass comes to what its body comes to. -/
theorem State.run_of_runs {s : State} {k : Nat} {need : Need} {len cost : Nat} {g : PredNo} {body : Nat → Act}
    (h : Runs s k need cost g) : s.run need len cost g body = .next (Act.finish k len cost s (body k)) := by
  have hn : need.feats.find? (fun f => !s.hasFeat f) = none := by
    simpa [List.find?_eq_none] using h.feats
  simp only [State.run, h.cur, hn, h.cls, h.guard, h.fits, if_false, Bool.not_true, Bool.false_eq_true]

/-- Everything that `State.run` can come to: no activation, a trap of the decode checks, a false guard, a charge
over the budget, or its body's outcome. -/
theorem State.run_cases (s : State) (need : Need) (len cost : Nat) (g : PredNo) (body : Nat → Act) :
    (s.cur = none ∧ s.run need len cost g body = .fault .noActivation) ∨
    ∃ k, s.cur = some k ∧
      ((∃ f ∈ need.feats, s.hasFeat f = false ∧
          s.run need len cost g body = .next (s.orWait k (s.takeTrap k 0x001#10 0 (some (2, f))))) ∨
        s.run need len cost g body = .next (s.orWait k (s.takeTrap k 0x020#10 0 none)) ∨
        s.run need len cost g body = .next (s.orWait k (s.takeTrap k 0x210#10 0 none)) ∨
        ((s.slot k).pred g = false ∧ s.run need len cost g body = .next (Act.finish k len 1 s (.next s))) ∨
        (Runs s k need cost g ∧ s.run need len cost g body = .next (Act.finish k len cost s (body k)))) := by
  unfold State.run
  split
  · next h => exact .inl ⟨h, rfl⟩
  · next k h =>
    refine .inr ⟨k, h, ?_⟩
    split
    · next f hf =>
      have h1 := List.mem_of_find?_eq_some hf
      have h2 := List.find?_some hf
      exact .inl ⟨f, h1, by simpa using h2, rfl⟩
    · next hn =>
      have hf : ∀ f ∈ need.feats, s.hasFeat f = true := by simpa [List.find?_eq_none] using hn
      dsimp only
      split
      · exact .inr (.inl rfl)
      · next hc =>
        split
        · next hg =>
          split
          · exact .inr (.inr (.inl rfl))
          · exact .inr (.inr (.inr (.inl ⟨by simpa using hg, rfl⟩)))
        · next hg =>
          split
          · exact .inr (.inr (.inl rfl))
          · next hb => exact .inr (.inr (.inr (.inr ⟨⟨h, hf, hc, by simpa using hg, by simpa using hb⟩, rfl⟩)))

/-- Where no access of a step waits, the step is made. -/
theorem State.orWait_free {t : State} (s : State) (k : Nat) (h : t.stuck = none) : s.orWait k t = t := by
  simp only [State.orWait, h]

/-- Where an access of a step waits, the slot waits for it and the step is not made. -/
theorem State.orWait_stuck {t : State} (s : State) (k : Nat) {key : Nat} (h : t.stuck = some key) :
    s.orWait k t = (s.modSlot k fun sl => { sl with phase := .blocked (.held key) }).yieldCore k := by
  simp only [State.orWait, h, State.yieldCore]

/-- A body that is done: its changes, then the charge and the PC. -/
theorem Act.finish_next {s : State} (s₀ : State) (k len cost : Nat) (h : s.stuck = none) :
    Act.finish k len cost s₀ (.next s) =
      s.modSlot k fun sl => { sl.charge cost with pc := sl.pc + BitVec.ofNat 52 len } :=
  State.orWait_free _ _ (by simpa [Act.outcome, State.modSlot_eq] using h)

/-- A body that jumps: its changes, then the charge and the new PC. -/
theorem Act.finish_jump {s : State} (s₀ : State) (k len cost : Nat) (pc : BitVec 52) (h : s.stuck = none) :
    Act.finish k len cost s₀ (.jump s pc) = s.modSlot k fun sl => { sl.charge cost with pc := pc } :=
  State.orWait_free _ _ (by simpa [Act.outcome, State.modSlot_eq] using h)

/-- A body that has ended the activation. -/
theorem Act.finish_ends {s : State} (s₀ : State) (k len cost : Nat) (h : s.stuck = none) :
    Act.finish k len cost s₀ (.ends s) = s := State.orWait_free _ _ h

/-- A body that waits: the slot gives up the pipeline, and its PC stays. -/
theorem Act.finish_wait {s : State} (s₀ : State) (k len cost : Nat) (w : Wait) (h : s.stuck = none) :
    Act.finish k len cost s₀ (.wait s w) = (s.modSlot k fun sl => { sl with phase := .blocked w }).yieldCore k :=
  State.orWait_free _ _ (by simpa [Act.outcome, State.modSlot_eq, State.yieldCore] using h)

/-- A body that traps: the trap is taken from the state before it (R210). -/
theorem Act.finish_trap (s₀ : State) (k len cost : Nat) (cause : BitVec 10) (addr : Word) :
    Act.finish k len cost s₀ (.trap cause addr) =
      s₀.orWait k ((s₀.sawPoison (keyCore k) (s₀.slot k).asid cause addr).takeTrap k cause addr none) := rfl

/-- A body that is done, for slot `k`: its changes, then the charge and the PC. -/
theorem Act.finish_next_setSlot {s : State} (s₀ : State) (k len cost : Nat) (sl : Slot) (h : s.stuck = none) :
    Act.finish k len cost s₀ (.next (s.setSlot k sl)) =
      s.setSlot k { sl.charge cost with pc := sl.pc + BitVec.ofNat 52 len } := by
  rw [Act.finish_next _ _ _ _ (by simpa using h)]
  simp [State.modSlot_eq, Slot.charge]

end Sys2Proof.Machine
end

