-- ==== Sys2Proof/Laws/Memory.lean ====
section
/-! SUPPORT. Memory: reading after writing, and the canonical form that every memory operation keeps. -/

namespace Sys2Proof.Machine

/-- Reading a byte after a write of one byte. -/
theorem Memory.read_write (m : Memory) (a b : Nat) (v : Byte) :
    (m.write a v).read b = if a = b then v else m.read b := by
  unfold Memory.write Memory.read
  split
  · next h => subst h; exact AMap.get_erase _ _ _ _
  · exact AMap.get_set _ _ _ _ _

@[simp] theorem Memory.read_write_same (m : Memory) (a : Nat) (v : Byte) : (m.write a v).read a = v := by
  simp [Memory.read_write]

theorem Memory.read_write_other (m : Memory) {a b : Nat} (v : Byte) (h : a ≠ b) :
    (m.write a v).read b = m.read b := by simp [Memory.read_write, h]

/-- Reading a byte after a write of a byte list: the list's byte inside its range, the old one outside. -/
theorem Memory.read_put (bs : List Byte) (m : Memory) (a b : Nat) :
    (Memory.put m a bs).read b = if a ≤ b then (bs[b - a]?).getD (m.read b) else m.read b := by
  induction bs generalizing m a with
  | nil => simp [Memory.put]
  | cons x xs ih =>
    rw [Memory.put, ih, Memory.read_write]
    by_cases h : a + 1 ≤ b
    · have e : b - a = b - (a + 1) + 1 := by omega
      simp [h, show a ≤ b by omega, show a ≠ b by omega, e]
    · by_cases hb : a = b
      · subst hb; simp
      · simp [h, hb, show ¬ a ≤ b by omega]

/-- A byte outside the written range keeps its value. -/
theorem Memory.read_put_outside (bs : List Byte) (m : Memory) {a b : Nat} (h : b < a ∨ a + bs.length ≤ b) :
    (Memory.put m a bs).read b = m.read b := by
  rw [Memory.read_put]
  rcases h with h | h
  · simp [show ¬ a ≤ b by omega]
  · simp [show bs.length ≤ b - a by omega]

/-- The canonical form as a statement about all entries. -/
theorem Memory.wf_iff (m : Memory) :
    Memory.wf m = true ↔ m.Pairwise (fun x y => x.1 < y.1) ∧ ∀ e ∈ m, e.2 ≠ blank := by
  induction m with
  | nil => simp [Memory.wf]
  | cons e m ih =>
    obtain ⟨a, v⟩ := e
    cases m with
    | nil => simp [Memory.wf]
    | cons f m =>
      obtain ⟨b, w⟩ := f
      rw [Memory.wf, Bool.and_eq_true, Bool.and_eq_true, ih]
      simp only [decide_eq_true_eq, bne_iff_ne, ne_eq, List.pairwise_cons, List.mem_cons, forall_eq_or_imp]
      constructor
      · rintro ⟨⟨h1, h2⟩, ⟨h3, h4⟩, h5, h6⟩
        exact ⟨⟨⟨h1, fun e he => lt_trans h1 (h3 e he)⟩, h3, h4⟩, h2, h5, h6⟩
      · rintro ⟨⟨⟨h1, -⟩, h3, h4⟩, h2, h5, h6⟩
        exact ⟨⟨h1, h2⟩, ⟨h3, h4⟩, h5, h6⟩

/-- What a written entry adds to a list of entries. -/
theorem AMap.mem_set {α : Type} (m : AMap α) (k : Nat) (v : α) {e : Nat × α} (h : e ∈ AMap.set m k v) :
    e = (k, v) ∨ e ∈ m := by
  induction m with
  | nil => simpa [AMap.set] using h
  | cons f m ih =>
    obtain ⟨j, w⟩ := f
    unfold AMap.set at h
    split at h
    · rcases List.mem_cons.mp h with h | h
      · exact .inl h
      · exact .inr (List.mem_cons_of_mem _ h)
    · split at h
      · simpa using h
      · rcases List.mem_cons.mp h with h | h
        · exact .inr (by simp [h])
        · rcases ih h with h | h
          · exact .inl h
          · exact .inr (List.mem_cons_of_mem _ h)

/-- Writing keeps the keys rising. -/
theorem AMap.pairwise_set {α : Type} (m : AMap α) (k : Nat) (v : α)
    (h : m.Pairwise fun x y => x.1 < y.1) : (AMap.set m k v).Pairwise fun x y => x.1 < y.1 := by
  induction m with
  | nil => simp [AMap.set]
  | cons f m ih =>
    obtain ⟨j, w⟩ := f
    obtain ⟨hj, hm⟩ := List.pairwise_cons.mp h
    unfold AMap.set
    split
    · next e => subst e; exact List.pairwise_cons.mpr ⟨hj, hm⟩
    · split
      · next hk =>
        refine List.pairwise_cons.mpr ⟨fun e he => ?_, h⟩
        rcases List.mem_cons.mp he with rfl | he
        · exact hk
        · exact lt_trans hk (hj e he)
      · refine List.pairwise_cons.mpr ⟨fun e he => ?_, ih hm⟩
        rcases AMap.mem_set m k v he with rfl | he
        · show j < k; omega
        · exact hj e he

/-- Writing a byte keeps the canonical form. -/
theorem Memory.wf_write (m : Memory) (a : Nat) (v : Byte) (h : Memory.wf m = true) :
    Memory.wf (m.write a v) = true := by
  rw [Memory.wf_iff] at h ⊢
  obtain ⟨hp, hb⟩ := h
  unfold Memory.write
  split
  · exact ⟨hp.filter _, fun e he => hb e (List.mem_filter.mp he).1⟩
  · next hv =>
    refine ⟨AMap.pairwise_set m a v hp, fun e he => ?_⟩
    rcases AMap.mem_set m a v he with rfl | he
    · exact hv
    · exact hb e he

/-- Writing a byte list keeps the canonical form. -/
theorem Memory.wf_put (bs : List Byte) (m : Memory) (a : Nat) (h : Memory.wf m = true) :
    Memory.wf (Memory.put m a bs) = true := by
  induction bs generalizing m a with
  | nil => exact h
  | cons b bs ih => exact ih _ _ (Memory.wf_write m a b h)

/-- A fold of byte writes keeps the canonical form. -/
theorem Memory.wf_foldl {α : Type} (f : α → Nat) (g : α → Byte) (l : List α) (m : Memory)
    (h : Memory.wf m = true) :
    Memory.wf (l.foldl (fun m c => Memory.write m (f c) (g c)) m) = true := by
  induction l generalizing m with
  | nil => exact h
  | cons c l ih => exact ih _ (Memory.wf_write m (f c) (g c) h)

end Sys2Proof.Machine
end

