-- ==== Sys2Proof/Laws/Stores.lean ====
section
/-! SUPPORT. What every store, engine write, release and notice does to memory, and that each keeps its canonical form. -/

namespace Sys2Proof.Machine

/-- A fold of steps that each keep a property keeps it. -/
theorem State.foldl_keeps {α : Type} (p : State → Prop) (f : State → α → State) (l : List α) {s : State}
    (hs : p s) (hf : ∀ t a, p t → p (f t a)) : p (l.foldl f s) := by
  induction l generalizing s with
  | nil => exact hs
  | cons a l ih => exact ih (hf s a hs)

/-- A fold of steps that each leave memory alone leaves it alone. -/
theorem State.foldl_mem {α : Type} (f : State → α → State) (l : List α) (s : State) (hf : ∀ t a, (f t a).mem = t.mem) :
    (l.foldl f s).mem = s.mem :=
  State.foldl_keeps (fun t => t.mem = s.mem) f l rfl fun t a h => (hf t a).trans h

@[simp] theorem State.mark_mem (s : State) (ws : List Nat) : (s.mark ws).mem = s.mem := rfl
@[simp] theorem State.unmark_mem (s : State) (ws : List Nat) : (s.unmark ws).mem = s.mem := rfl

@[simp] theorem State.wake_mem (s : State) (w : Nat) : (s.wake w).mem = s.mem := by
  unfold State.wake
  split
  · split
    · exact State.foldl_mem _ _ _ fun _ _ => rfl
    · rfl
  · rfl

/-- A store writes its bytes and nothing else of memory. -/
@[simp] theorem State.store_mem (s : State) (key : Nat) (bs : List Byte) :
    (s.store key bs).mem = Memory.put s.mem key bs := by
  unfold State.store
  rw [State.foldl_mem _ _ _ State.wake_mem]
  dsimp only
  split <;> rfl

@[simp] theorem State.storeLE_mem (s : State) (key n v : Nat) :
    (s.storeLE key n v).mem = Memory.put s.mem key (leBytes v n) := State.store_mem ..

/-- An engine's write writes its cells in order and nothing else of memory. -/
@[simp] theorem State.engineWrite_mem (s : State) (cells : List Cell) :
    (s.engineWrite cells).mem = cells.foldl (fun m (c : Cell) => Memory.write m c.1 c.2.1) s.mem := by
  have word (t : State) (run : List Cell) :
      (t.engineWord run).mem = run.foldl (fun m (c : Cell) => Memory.write m c.1 c.2.1) t.mem := by
    unfold State.engineWord
    split
    · rfl
    · dsimp only; rw [State.wake_mem]; split
      · rfl
      · split <;> rfl
  have runs (l : List (List Cell)) (t : State) :
      (l.foldl State.engineWord t).mem = l.flatten.foldl (fun m (c : Cell) => Memory.write m c.1 c.2.1) t.mem := by
    induction l generalizing t with
    | nil => rfl
    | cons r l ih => rw [List.foldl_cons, ih, word, List.flatten_cons, List.foldl_append]
  rw [State.engineWrite, runs, List.flatten_splitBy]

/-! ### Opening rows (R367) -/

/-- One state is another but for the activation counts of its stacks. -/
structure SameButActs (s t : State) : Prop where
  rest  : t = { s with hbm := t.hbm }
  stack : ∀ j, ∃ a, t.stack j = { s.stack j with acts := a }

theorem SameButActs.refl (s : State) : SameButActs s s := ⟨rfl, fun j => ⟨(s.stack j).acts, rfl⟩⟩

theorem SameButActs.trans {s t u : State} (h : SameButActs s t) (g : SameButActs t u) : SameButActs s u := by
  refine ⟨?_, fun j => ?_⟩
  · rw [g.rest, h.rest]
  · obtain ⟨a, ha⟩ := h.stack j
    obtain ⟨b, hb⟩ := g.stack j
    exact ⟨b, by rw [hb, ha]⟩

/-- Counting an activation changes a count and nothing else. -/
theorem State.activate_same (s : State) (key : Nat) : SameButActs s (s.activate key) := by
  unfold State.activate
  split
  · exact .refl s
  · refine ⟨rfl, fun j => ?_⟩
    rw [State.stack_modStack]
    split
    · next h =>
      rw [show s.stack (stackOf (paOf key)) = s.stack j by simp only [State.stack, ix, h]]
      exact ⟨_, rfl⟩
    · exact ⟨_, rfl⟩

/-- Opening rows changes the activation counts and nothing else. -/
theorem State.openRows_same (s : State) (key n : Nat) : SameButActs s (s.openRows key n) := by
  unfold State.openRows
  split
  · exact .refl s
  · refine ⟨rfl, fun j => ⟨s.actsAfter (ix 8 j).val (s.stack j).acts (s.rowStarts key n), ?_⟩⟩
    simp only [State.stack, Fin.getElem_fin, Vector.getElem_mapFinIdx]

@[simp] theorem State.openRows_mem (s : State) (key n : Nat) : (s.openRows key n).mem = s.mem := by rw [(s.openRows_same key n).rest]
@[simp] theorem State.openRows_poison (s : State) (key n : Nat) : (s.openRows key n).poison = s.poison := by rw [(s.openRows_same key n).rest]
@[simp] theorem State.openRows_cores (s : State) (key n : Nat) : (s.openRows key n).cores = s.cores := by rw [(s.openRows_same key n).rest]
@[simp] theorem State.openRows_slots (s : State) (key n : Nat) : (s.openRows key n).slots = s.slots := by rw [(s.openRows_same key n).rest]
@[simp] theorem State.openRows_clusters (s : State) (key n : Nat) : (s.openRows key n).clusters = s.clusters := by rw [(s.openRows_same key n).rest]
@[simp] theorem State.openRows_dies (s : State) (key n : Nat) : (s.openRows key n).dies = s.dies := by rw [(s.openRows_same key n).rest]
@[simp] theorem State.openRows_module (s : State) (key n : Nat) : (s.openRows key n).module = s.module := by rw [(s.openRows_same key n).rest]
@[simp] theorem State.openRows_sdie (s : State) (key n : Nat) : (s.openRows key n).sdie = s.sdie := by rw [(s.openRows_same key n).rest]
@[simp] theorem State.openRows_net (s : State) (key n : Nat) : (s.openRows key n).net = s.net := by rw [(s.openRows_same key n).rest]
@[simp] theorem State.openRows_cycle (s : State) (key n : Nat) : (s.openRows key n).cycle = s.cycle := by rw [(s.openRows_same key n).rest]
@[simp] theorem State.openRows_ns (s : State) (key n : Nat) : (s.openRows key n).ns = s.ns := by rw [(s.openRows_same key n).rest]
@[simp] theorem State.openRows_tick (s : State) (key n : Nat) : (s.openRows key n).tick = s.tick := by rw [(s.openRows_same key n).rest]
@[simp] theorem State.openRows_nextId (s : State) (key n : Nat) : (s.openRows key n).nextId = s.nextId := by rw [(s.openRows_same key n).rest]
@[simp] theorem State.openRows_mover (s : State) (key n : Nat) : (s.openRows key n).mover = s.mover := by rw [(s.openRows_same key n).rest]
@[simp] theorem State.openRows_inputs (s : State) (key n : Nat) : (s.openRows key n).inputs = s.inputs := by rw [(s.openRows_same key n).rest]
@[simp] theorem State.openRows_stuck (s : State) (key n : Nat) : (s.openRows key n).stuck = s.stuck := by rw [(s.openRows_same key n).rest]

@[simp] theorem State.openRows_slot (s : State) (key n k : Nat) : (s.openRows key n).slot k = s.slot k := by simp [State.slot]
@[simp] theorem State.openRows_core (s : State) (key n c : Nat) : (s.openRows key n).core c = s.core c := by simp [State.core]

@[simp] theorem State.touch_mem (s : State) (key n : Nat) : (s.touch key n).mem = s.mem := by
  unfold State.touch; split <;> rfl

@[simp] theorem State.open_mem (s : State) (key n : Nat) : (s.open key n).mem = s.mem := by simp [State.open]

@[simp] theorem State.sawPoison_mem (s : State) (c : Nat) (asid : BitVec 16) (cause : BitVec 10) (va : Word) :
    (s.sawPoison c asid cause va).mem = s.mem := by
  have one (t : State) (k : Nat) : (t.markWhere k).mem = t.mem := by
    unfold State.markWhere; split <;> rfl
  unfold State.sawPoison
  split
  · rfl
  · split
    · exact State.foldl_mem _ _ _ one
    · exact one _ _

/-- What waits for a held access leaves memory as it was; what does not has made its changes. -/
theorem State.orWait_mem (s : State) (k : Nat) (t : State) :
    (s.orWait k t).mem = s.mem ∨ s.orWait k t = t := by
  unfold State.orWait
  split
  · exact .inr rfl
  · exact .inl rfl

@[simp] theorem State.eccClear_mem (s : State) (key n : Nat) : (s.eccClear key n).mem = s.mem := by
  unfold State.eccClear
  split
  · exact State.foldl_mem _ _ _ fun _ _ => rfl
  · rfl

@[simp] theorem State.send_mem (s : State) (core : Nat) (hdr0 : Word) (rtag : BitVec 16) (key : BitVec 32)
    (pay : Vector Word 6) (dst : Nat) (id : BitVec 32) (r : Report) (claimed : Bool) :
    (s.send core hdr0 rtag key pay dst id r claimed).mem = s.mem := rfl

@[simp] theorem State.notice_mem (s : State) (dst : BitVec 22) (pay : Vector Word 6) : (s.notice dst pay).mem = s.mem := rfl

/-- Canonical memory: see `Memory.wf`. -/
theorem State.store_wf {s : State} (key : Nat) (bs : List Byte) (h : Memory.wf s.mem = true) :
    Memory.wf (s.store key bs).mem = true := by
  simpa using Memory.wf_put bs s.mem key h

theorem State.storeLE_wf {s : State} (key n v : Nat) (h : Memory.wf s.mem = true) :
    Memory.wf (s.storeLE key n v).mem = true := State.store_wf _ _ h

theorem State.engineWrite_wf {s : State} (cells : List Cell) (h : Memory.wf s.mem = true) :
    Memory.wf (s.engineWrite cells).mem = true := by
  simpa using Memory.wf_foldl (fun c : Cell => c.1) (fun c => c.2.1) cells s.mem h

theorem State.performPosted_wf {s : State} (r : Request) (h : Memory.wf s.mem = true) :
    Memory.wf (s.performPosted r).mem = true := by
  unfold State.performPosted
  split
  · exact State.storeLE_wf _ _ _ (by simpa using h)
  · exact h

theorem State.drain_wf {s : State} (core : Nat) (id : BitVec 32) (h : Memory.wf s.mem = true) :
    Memory.wf (s.drain core id).mem = true := by
  unfold State.drain
  exact State.foldl_keeps (fun t => Memory.wf t.mem = true) _ _ h fun _ r ht =>
    State.performPosted_wf r (by simpa using ht)

theorem State.release_wf {s : State} (k : Nat) (h : Memory.wf s.mem = true) : Memory.wf (s.release k).mem = true :=
  State.drain_wf _ _ h

theorem State.areaStore_wf {s : State} (c : Nat) (area : Word) (asid : BitVec 16) (off n v : Nat)
    (h : Memory.wf s.mem = true) : Memory.wf (s.areaStore c area asid off n v).mem = true := by
  unfold State.areaStore
  split
  · exact State.storeLE_wf _ _ _ (by simpa using h)
  · exact h

theorem State.areaWords_wf {s : State} (c : Nat) (area : Word) (asid : BitVec 16) (off : Nat) (ws : List Word)
    (h : Memory.wf s.mem = true) : Memory.wf (s.areaWords c area asid off ws).mem = true := by
  induction ws generalizing s off with
  | nil => exact h
  | cons w ws ih => exact ih _ (State.areaStore_wf _ _ _ _ _ _ h)

theorem State.atCtx_wf {s : State} (c : Nat) (id : BitVec 32) (f : Slot → Slot) (off : Nat) (g : Word → Word)
    (h : Memory.wf s.mem = true) : Memory.wf (s.atCtx c id f off g).mem = true := by
  unfold State.atCtx
  split
  · exact h
  · exact State.areaStore_wf _ _ _ _ _ _ h
  · exact h

theorem State.orWait_wf {s t : State} (k : Nat) (h : Memory.wf s.mem = true) (ht : Memory.wf t.mem = true) :
    Memory.wf (s.orWait k t).mem = true := by
  rcases State.orWait_mem s k t with e | e <;> rw [e] <;> assumption

/-- The memory of the module right after reset is canonical, and every byte of it reads as an unlisted one. -/
theorem State.reset_wf : Memory.wf State.reset.mem = true := rfl

theorem State.reset_read (a : Nat) : Memory.read State.reset.mem a = blank := rfl

end Sys2Proof.Machine
end

