-- ==== Sys2Proof/Laws/Holds.lean ====
section
/-! SUPPORT. When a release waits: performing a posted store holds nothing, so a release none of whose stores is held
makes no step wait; and what walks and accesses do where nothing is held. -/

namespace Sys2Proof.Machine

/-- Two states that make the same accesses wait, and wait themselves alike. -/
structure SameHolds (s t : State) : Prop where
  tick   : t.tick = s.tick
  module : t.module = s.module
  stuck  : t.stuck = s.stuck
  reqs   : t.net.reqs = s.net.reqs
  holds  : ∀ j, (t.stack j).holds = (s.stack j).holds
  ccn    : ∀ j, (t.stack j).ccn = (s.stack j).ccn

theorem SameHolds.refl (s : State) : SameHolds s s := ⟨rfl, rfl, rfl, rfl, fun _ => rfl, fun _ => rfl⟩

theorem SameHolds.trans {s t u : State} (h : SameHolds s t) (g : SameHolds t u) : SameHolds s u :=
  ⟨g.tick.trans h.tick, g.module.trans h.module, g.stuck.trans h.stuck, g.reqs.trans h.reqs,
    fun j => (g.holds j).trans (h.holds j), fun j => (g.ccn j).trans (h.ccn j)⟩

/-- A fold of steps that each hold nothing holds nothing. -/
theorem SameHolds.foldl {α : Type} (f : State → α → State) (l : List α) (s : State) (hf : ∀ t a, SameHolds t (f t a)) :
    SameHolds s (l.foldl f s) :=
  State.foldl_keeps (SameHolds s) f l (.refl s) fun t a h => h.trans (hf t a)

/-- Changing a stack's other fields holds nothing. -/
theorem SameHolds.modStack (s : State) (c : Nat) (f : Stack → Stack) (hf : ∀ t, (f t).holds = t.holds)
    (hc : ∀ t, (f t).ccn = t.ccn) : SameHolds s (s.modStack c f) := by
  have e {β : Type} (g : Stack → β) (hg : ∀ t, g (f t) = g t) (i : Fin 8) :
      g (s.hbm.set (ix 8 c) (f (s.stack c)))[i] = g s.hbm[i] := by
    rcases eq_or_ne (ix 8 c) i with h | h
    · subst h; simp [hg, State.stack]
    · rw [Fin.getElem_fin, Fin.getElem_fin, Vector.getElem_set_ne _ _ (fun g => h (Fin.ext g))]
  exact ⟨rfl, rfl, rfl, rfl, fun j => e _ hf (ix 8 j), fun j => e _ hc (ix 8 j)⟩

theorem SameHolds.wake (s : State) (w : Nat) : SameHolds s (s.wake w) := by
  unfold State.wake
  split
  · split
    · exact .foldl _ _ _ fun _ _ => ⟨rfl, rfl, rfl, rfl, fun _ => rfl, fun _ => rfl⟩
    · exact .refl _
  · exact .refl _

theorem SameHolds.store (s : State) (key : Nat) (bs : List Byte) : SameHolds s (s.store key bs) := by
  have h (t : State) (l : List Nat) : SameHolds t (l.foldl State.wake t) := .foldl _ _ _ .wake
  unfold State.store
  refine .trans ?_ (h _ _)
  dsimp only
  split <;> exact ⟨rfl, rfl, rfl, rfl, fun _ => rfl, fun _ => rfl⟩

theorem SameHolds.eccClear (s : State) (key n : Nat) : SameHolds s (s.eccClear key n) := by
  unfold State.eccClear
  split
  · exact .foldl _ _ _ fun _ _ => .modStack _ _ _ (fun _ => rfl) fun _ => rfl
  · exact .refl _

/-- Activation counts hold nothing. -/
theorem SameButActs.sameHolds {s t : State} (h : SameButActs s t) : SameHolds s t := by
  have of {β : Type} (f : Stack → β) (hf : ∀ x a, f { x with acts := a } = f x) (j : Nat) : f (t.stack j) = f (s.stack j) := by
    obtain ⟨a, ha⟩ := h.stack j
    rw [ha, hf]
  exact ⟨by rw [h.rest], by rw [h.rest], by rw [h.rest], by rw [h.rest], of _ fun _ _ => rfl, of _ fun _ _ => rfl⟩

theorem SameHolds.performPosted (s : State) (r : Request) : SameHolds s (s.performPosted r) := by
  unfold State.performPosted
  split
  · exact (State.openRows_same _ _ _).sameHolds.trans ((SameHolds.eccClear _ _ _).trans (.store _ _ _))
  · exact .refl _

/-- Whether any region is held, stack by stack. -/
theorem State.anyHold_iff (s : State) : s.anyHold = true ↔ ∃ j, (s.stack j).holds ≠ [] := by
  simp only [State.anyHold, List.any_eq_true, decide_eq_true_eq]
  constructor
  · rintro ⟨x, hx, hne⟩
    obtain ⟨i, hi, rfl⟩ := List.mem_iff_getElem.mp hx
    have hi' : i < 8 := by simpa using hi
    refine ⟨i, ?_⟩
    have e : ix 8 i = ⟨i, hi'⟩ := Fin.ext (Nat.mod_eq_of_lt hi')
    simp only [State.stack, e]
    exact hne
  · rintro ⟨j, hj⟩
    refine ⟨_, ?_, hj⟩
    rw [State.stack, Fin.getElem_fin, ← Vector.getElem_toList (by simp)]
    exact List.getElem_mem _

theorem SameHolds.anyHold {s t : State} (h : SameHolds s t) : t.anyHold = s.anyHold := by
  rw [Bool.eq_iff_iff, State.anyHold_iff, State.anyHold_iff]; simp only [h.holds]

/-- The same accesses wait. -/
theorem SameHolds.waitsAt {s t : State} (h : SameHolds s t) (key n : Nat) : t.waitsAt key n = s.waitsAt key n := by
  have hn : t.node = s.node := by simp [State.node, h.module]
  have hw : t.heldWord = s.heldWord := funext fun w => by
    simp only [State.heldWord, State.bankOf, State.ccGranule, h.holds, h.ccn, h.tick]; rfl
  simp only [State.waitsAt, State.pathDown, State.unreachable, State.heldRange, State.inStack, State.own, State.arrivedAt,
    h.module, h.reqs, hn, h.anyHold, hw]; rfl

/-- A store that does not wait is performed, and holds nothing. -/
theorem State.flush_free {s : State} (r : Request) (h : s.waitsAt r.key r.op.size = none) :
    s.flush r = s.performPosted r := by
  simp only [State.flush, State.touch, h]

/-- Where none of the stores of a list waits, they are all performed. -/
theorem State.flushes_free (l : List Request) (s : State) (h : ∀ r ∈ l, s.waitsAt r.key r.op.size = none) :
    l.foldl State.flush s = l.foldl State.performPosted s := by
  induction l generalizing s with
  | nil => rw [List.foldl_nil, List.foldl_nil]
  | cons r l ih =>
    rw [List.foldl_cons, List.foldl_cons, State.flush_free r (h r (by simp))]
    exact ih _ fun x hx => by
      rw [(SameHolds.performPosted s r).waitsAt]; exact h x (by simp [hx])

/-- What a release does where none of its stores is held: it performs them all in program order, and nothing waits. -/
theorem State.release_free {s : State} (k : Nat) (h : s.heldStore (keyCore k) (s.slot k).ctxid = false) :
    s.release k =
      ((s.net.reqs.filter fun r => r.postedBy (keyCore k) (s.slot k).ctxid).foldl State.performPosted s).modNet fun n =>
        { n with reqs := n.reqs.filter fun r => !r.postedBy (keyCore k) (s.slot k).ctxid } := by
  unfold State.release State.drain
  rw [State.flushes_free]
  intro r hr
  obtain ⟨hr, hp⟩ := List.mem_filter.mp hr
  simp only [State.heldStore, List.any_eq_false, Bool.and_eq_true, not_and] at h
  simpa using h r hr hp

theorem State.release_stuck {s : State} (k : Nat) (h : s.heldStore (keyCore k) (s.slot k).ctxid = false) :
    (s.release k).stuck = s.stuck := by
  rw [State.release_free k h]
  exact (SameHolds.foldl _ _ _ .performPosted).stuck

/-! ### Where nothing is in error and no access waits -/

/-- What holds of every stack. -/
theorem State.all_stacks (s : State) (p : Stack → Bool) : s.hbm.toList.all p = true ↔ ∀ j, p (s.stack j) = true := by
  simp only [List.all_eq_true]
  constructor
  · exact fun h j => h _ (by simp [State.stack])
  · intro h x hx
    obtain ⟨i, hi, rfl⟩ := List.mem_iff_getElem.mp hx
    have hi' : i < 8 := by simpa using hi
    have e : ix 8 i = ⟨i, hi'⟩ := Fin.ext (Nat.mod_eq_of_lt hi')
    have := h i
    simp only [State.stack, e] at this
    exact this

/-- Where nothing is in error and no access waits, no path is down, no request waits, and every stack is sound and
holds nothing. -/
theorem State.calm_iff (s : State) : s.calm = true ↔
    s.module.down = [] ∧ s.net.reqs.any Request.arrived = false ∧ ∀ j, (s.stack j).sound = true ∧ (s.stack j).holds = [] := by
  have hh : s.anyHold = false ↔ ∀ j, (s.stack j).holds = [] := by
    rw [← Bool.not_eq_true, State.anyHold_iff]; simp
  simp only [State.calm, State.mayWait, Bool.and_eq_true, Bool.not_eq_true', Bool.or_eq_false_iff, State.all_stacks, hh,
    decide_eq_false_iff_not, not_not, forall_and]
  tauto

/-- With nothing held and no path down no access waits, so an access changes nothing but its activations. -/
theorem State.touch_calm {s : State} (h : s.calm = true) (key n : Nat) : s.touch key n = s := by
  obtain ⟨hd, hr, hs⟩ := s.calm_iff.mp h
  have hh : s.anyHold = false := by
    rw [← Bool.not_eq_true, State.anyHold_iff]; simp [fun j => (hs j).2]
  have ha : s.net.reqs.filter Request.arrived = [] := by simpa [List.filter_eq_nil_iff] using hr
  simp [State.touch, State.waitsAt, State.pathDown, State.arrivedAt, hd, State.heldRange, hh, ha]

theorem State.open_calm {s : State} (h : s.calm = true) (key n : Nat) : s.open key n = s.openRows key n := by
  rw [State.open, State.touch_calm h]

theorem State.resolve_calm {s : State} (h : s.calm = true) (key n : Nat) : s.resolve key n = s := by
  simp [State.resolve, (s.calm_iff.mp h).2.2]

theorem State.eccClear_calm {s : State} (h : s.calm = true) (key n : Nat) : s.eccClear key n = s := by
  have := ((s.calm_iff.mp h).2.2 (stackOf (paOf key))).1
  simp only [Stack.sound, Bool.and_eq_true, decide_eq_true_eq] at this
  simp [State.eccClear, this.1.1.1]

/-- Nothing of the stacks but activation counts and nothing of the module has changed, no request on its way, and no
step waits that did not. -/
structure Still (s t : State) : Prop where
  stack  : ∀ j, ∃ a, t.stack j = { s.stack j with acts := a }
  module : t.module = s.module
  stuck  : t.stuck = s.stuck
  reqs   : t.net.reqs = s.net.reqs

theorem Still.refl (s : State) : Still s s := ⟨fun j => ⟨(s.stack j).acts, rfl⟩, rfl, rfl, rfl⟩

theorem Still.trans {s t u : State} (h : Still s t) (g : Still t u) : Still s u := by
  refine ⟨fun j => ?_, g.module.trans h.module, g.stuck.trans h.stuck, g.reqs.trans h.reqs⟩
  obtain ⟨a, ha⟩ := h.stack j
  obtain ⟨b, hb⟩ := g.stack j
  exact ⟨b, by rw [hb, ha]⟩

/-- The stacks and the module as they are, and no other request on its way. -/
theorem Still.of {s t : State} (h : t.hbm = s.hbm) (m : t.module = s.module) (k : t.stuck = s.stuck)
    (r : t.net.reqs = s.net.reqs) : Still s t :=
  ⟨fun j => ⟨(s.stack j).acts, by simp [State.stack, h]⟩, m, k, r⟩

theorem SameButActs.still {s t : State} (h : SameButActs s t) : Still s t :=
  ⟨h.stack, by rw [h.rest], by rw [h.rest], by rw [h.rest]⟩

theorem Still.calm {s t : State} (h : Still s t) (c : s.calm = true) : t.calm = true := by
  obtain ⟨hd, hr, hs⟩ := s.calm_iff.mp c
  refine t.calm_iff.mpr ⟨by rw [h.module, hd], by rw [h.reqs, hr], fun j => ?_⟩
  obtain ⟨a, ha⟩ := h.stack j
  rw [ha]
  exact hs j

theorem Still.store (s : State) (key : Nat) (bs : List Byte) : Still s (s.store key bs) := by
  have h (t : State) (w : Nat) : Still t (t.wake w) := by
    unfold State.wake
    split
    · split
      · exact State.foldl_keeps (Still t) _ _ (.refl t) fun _ _ g => g.trans (.of rfl rfl rfl rfl)
      · exact .refl t
    · exact .refl t
  unfold State.store
  refine State.foldl_keeps (Still s) _ _ ?_ fun _ _ g => g.trans (h _ _)
  dsimp only
  split <;> exact .of rfl rfl rfl rfl

/-- A store that opens its rows and finds nothing to clear. -/
theorem Still.openStore {s : State} (h : s.calm = true) (key n m : Nat) (bs : List Byte) (k : Nat) :
    Still s (((s.open key n).eccClear key m).store k bs) := by
  rw [State.open_calm h]
  have g := (s.openRows_same key n).still
  rw [State.eccClear_calm (g.calm h)]
  exact g.trans (.store _ _ _)

/-- A read of memory that has nothing to resolve. -/
theorem Still.openRead {s : State} (h : s.calm = true) (key n : Nat) : Still s ((s.open key n).resolve key n) := by
  rw [State.open_calm h]
  have g := (s.openRows_same key n).still
  rw [State.resolve_calm (g.calm h)]
  exact g

/-- Reads of memory that have nothing to resolve. -/
theorem Still.foldRead {α : Type} {s : State} (h : s.calm = true) (l : List α) (key : α → Nat) (n : Nat) :
    Still s (l.foldl (fun t a => (t.open (key a) n).resolve (key a) n) s) :=
  State.foldl_keeps (Still s) _ _ (.refl s) fun _ _ g => g.trans (.openRead (g.calm h) _ _)

/-- A walk reads its tables and enters its translation. -/
theorem State.fillTlb_calm {s : State} (h : s.calm = true) (c : Nat) (x : Xlate) :
    ∃ t, s.fillTlb c x = t.enterTlb c x ∧ Still s t := by
  unfold State.fillTlb State.resolveTables
  cases hx : x.fill with
  | none => exact ⟨s, by simp [State.enterTlb, hx], .refl s⟩
  | some e => exact ⟨_, rfl, .foldRead h _ _ _⟩

theorem Still.areaStore {s : State} (h : s.calm = true) (c : Nat) (area : Word) (asid : BitVec 16) (off n v : Nat) :
    Still s (s.areaStore c area asid off n v) := by
  unfold State.areaStore
  split
  · exact .openStore h _ _ _ _ _
  · exact .refl s

theorem Still.areaWords (c : Nat) (area : Word) (asid : BitVec 16) (ws : List Word) :
    ∀ {s : State}, s.calm = true → ∀ off, Still s (s.areaWords c area asid off ws) := by
  induction ws with
  | nil => exact fun {s} _ _ => .refl s
  | cons w ws ih =>
    intro s h off
    have g := Still.areaStore h c area asid off 8 w.toNat
    exact g.trans (ih (g.calm h) (off + 8))

theorem Still.copyPriv {s : State} (h : s.calm = true) (c : Nat) (area : Word) (asid : BitVec 16) (priv : Word) (out : Bool) :
    Still s (s.copyPriv c area asid priv out) := by
  have one {t : State} (ht : t.calm = true) (a b : Nat) : Still t (t.copyWord a b) := by
    have g := Still.openStore ht b 8 8 (leBytes (t.loadLE a 8) 8) b
    unfold State.copyWord
    dsimp only
    split
    · exact g.trans (.of rfl rfl rfl rfl)
    · exact g
  refine State.foldl_keeps (Still s) _ _ (.refl s) fun t i g => ?_
  split
  · split <;> exact g.trans (one (g.calm h) _ _)
  · exact g

/-- Reading the words of a save area changes activation counts alone. -/
theorem Still.areaOpen {s : State} (h : s.calm = true) (c : Nat) (area : Word) (asid : BitVec 16) (n : Nat) :
    Still s (s.areaOpen c area asid n) := by
  refine State.foldl_keeps (Still s) _ _ (.refl s) fun t i g => ?_
  split
  · exact g.trans (.openRead (g.calm h) _ _)
  · exact g

/-- A save waits for nothing that its release did not wait for. -/
theorem State.evict_stuck {s : State} {k : Nat} (h : ((s.release k).yieldCore k).calm = true) (area : Word) (asid : BitVec 16) :
    (s.evict k area asid).stuck = (s.release k).stuck := by
  have step {t : State} (g : Still ((s.release k).yieldCore k) t) (off : Nat) (ws : List Word) :
      Still ((s.release k).yieldCore k) (t.areaWords (keyCore k) area asid off ws) := g.trans (.areaWords _ _ _ _ (g.calm h) _)
  have put {t : State} (g : Still ((s.release k).yieldCore k) t) (off n v : Nat) :
      Still ((s.release k).yieldCore k) (t.areaStore (keyCore k) area asid off n v) := g.trans (.areaStore (g.calm h) _ _ _ _ _ _)
  have h1 := State.foldl_keeps (Still ((s.release k).yieldCore k))
    (fun (s : State) (e : Nat × List Word) => s.areaWords (keyCore k) area asid e.1 e.2)
    (((s.release k).yieldCore k).saveImage k) (.refl _) fun t e g => step g _ _
  have h2 := put h1 0x034 4 ((((s.release k).yieldCore k).slot k).heldAll.map Held.msg).length
  have last {t : State} (g : Still ((s.release k).yieldCore k) t) (ws : List Word) :
      ((t.areaWords (keyCore k) area asid 0xA00 ws).copyPriv (keyCore k) area asid (((s.release k).yieldCore k).slot k).priv
        true).stuck = (s.release k).stuck :=
    ((step g 0xA00 ws).trans (.copyPriv ((step g 0xA00 ws).calm h) _ _ _ _ _)).stuck
  unfold State.evict
  dsimp only [State.setSlot_stuck, State.modCore_stuck]
  split
  · exact last h2 _
  · exact last (put (put h2 _ _ _) _ _ _) _

/-! ### Resolving words makes no step wait (R358, R361) -/

/-- No access can wait: no path is down, no request waits, and no word is held. -/
structure Quiet (s : State) : Prop where
  down : s.module.down = []
  reqs : s.net.reqs.any Request.arrived = false
  held : ∀ w, s.heldWord w = false

/-- A machine that was quiet is quiet still, and no step waits that did not. -/
def StaysQuiet (s t : State) : Prop := Quiet s → Quiet t ∧ t.stuck = s.stuck

theorem StaysQuiet.refl (s : State) : StaysQuiet s s := fun q => ⟨q, rfl⟩

theorem StaysQuiet.trans {s t u : State} (h : StaysQuiet s t) (g : StaysQuiet t u) : StaysQuiet s u := fun q =>
  ⟨(g (h q).1).1, (g (h q).1).2.trans (h q).2⟩

theorem SameHolds.heldWord {s t : State} (h : SameHolds s t) (w : Nat) : t.heldWord w = s.heldWord w := by
  simp only [State.heldWord, State.bankOf, State.ccGranule, h.holds, h.ccn, h.tick]; rfl

theorem SameHolds.quiet {s t : State} (h : SameHolds s t) : StaysQuiet s t := fun q =>
  ⟨⟨h.module ▸ q.down, h.reqs ▸ q.reqs, fun w => (h.heldWord w).trans (q.held w)⟩, h.stuck⟩

theorem Quiet.touch {s : State} (q : Quiet s) (key n : Nat) : s.touch key n = s := by
  have ha : s.net.reqs.filter Request.arrived = [] := by simpa [List.filter_eq_nil_iff] using q.reqs
  simp [State.touch, State.waitsAt, State.pathDown, State.arrivedAt, q.down, State.heldRange, q.held, ha]

section
variable {s t : State}

theorem StaysQuiet.same (g : StaysQuiet s t) {u : State} (h : SameHolds t u) : StaysQuiet s u := g.trans h.quiet

/-- A notice and a change of the module's other registers hold nothing. -/
theorem StaysQuiet.stackNotice (g : StaysQuiet s t) (cause : BitVec 10) (kind pa seq : Nat) :
    StaysQuiet s (t.stackNotice cause kind pa seq) := g.same ⟨rfl, rfl, rfl, rfl, fun _ => rfl, fun _ => rfl⟩

theorem StaysQuiet.notice (g : StaysQuiet s t) (dst : BitVec 22) (pay : Vector Word 6) :
    StaysQuiet s (t.notice dst pay) := g.same ⟨rfl, rfl, rfl, rfl, fun _ => rfl, fun _ => rfl⟩

theorem StaysQuiet.modModule (g : StaysQuiet s t) (f : Module → Module) (h : (f t.module).down = t.module.down) :
    StaysQuiet s (t.modModule f) :=
  g.trans fun q => ⟨⟨h.trans q.down, q.reqs, q.held⟩, rfl⟩

theorem StaysQuiet.modStack (g : StaysQuiet s t) (c : Nat) (f : Stack → Stack) (hf : ∀ t, (f t).holds = t.holds)
    (hc : ∀ t, (f t).ccn = t.ccn) : StaysQuiet s (t.modStack c f) := g.same (SameHolds.modStack t c f hf hc)

theorem StaysQuiet.openStore (g : StaysQuiet s t) (key n m : Nat) (bs : List Byte) (k : Nat) :
    StaysQuiet s (((t.open key n).eccClear key m).store k bs) := g.trans fun q => by
  rw [State.open, q.touch]
  exact ((t.openRows_same key n).sameHolds.trans ((SameHolds.eccClear _ _ _).trans (.store _ _ _))).quiet q

/-- A hold that begins in this step holds none of its accesses. -/
theorem StaysQuiet.holdRegion (g : StaysQuiet s t) (st : Nat) (kind : HoldKind) (region ns pa : Nat) :
    StaysQuiet s (t.holdRegion st kind region ns pa) := g.trans fun q => by
  refine ⟨⟨q.down, q.reqs, fun w => ?_⟩, rfl⟩
  have h := q.held w
  have hc (j : Nat) : ((t.modStack st fun x => { x with holds := x.holds ++ [⟨kind, region, t.ns + ns, pa, t.tick⟩] }).stack j).ccn =
      (t.stack j).ccn := by
    rw [State.stack_modStack]
    split
    · next e => rw [show t.stack st = t.stack j by simp only [State.stack, ix, e]]
    · rfl
  have hb : (t.modStack st fun x => { x with holds := x.holds ++ [⟨kind, region, t.ns + ns, pa, t.tick⟩] }).bankOf = t.bankOf :=
    funext fun a => by simp only [State.bankOf, State.ccGranule, hc]; rfl
  unfold State.holdRegion State.heldWord at *
  rw [State.stack_modStack, hb]
  split
  · next e =>
    rw [show t.stack st = t.stack (stackOf (8 * w)) by simp only [State.stack, ix, e], List.any_append, Bool.or_eq_false_iff]
    exact ⟨h, by simp⟩
  · exact h

theorem StaysQuiet.foldl {α : Type} (g : StaysQuiet s t) (f : State → α → State) (l : List α)
    (hf : ∀ t a, StaysQuiet s t → StaysQuiet s (f t a)) : StaysQuiet s (l.foldl f t) :=
  State.foldl_keeps (StaysQuiet s) f l g hf

theorem StaysQuiet.retireFrame (g : StaysQuiet s t) (cause : BitVec 10) (kind pa : Nat) :
    StaysQuiet s (t.retireFrame cause kind pa) := by
  unfold State.retireFrame
  dsimp only
  refine .foldl (.modModule ?_ _ rfl) _ _ fun u e h => ?_
  · split
    · exact g
    · exact g.openStore _ _ _ _ _
  · split
    · exact h.notice _ _
    · exact h

theorem StaysQuiet.bankFailed (g : StaysQuiet s t) (pa : Nat) : StaysQuiet s (t.bankFailed pa) := by
  unfold State.bankFailed
  dsimp only
  split
  · apply StaysQuiet.stackNotice; apply g.modStack <;> exact fun _ => rfl
  · apply StaysQuiet.holdRegion; apply g.modStack <;> exact fun _ => rfl

theorem StaysQuiet.rowFailed (g : StaysQuiet s t) (pa : Nat) : StaysQuiet s (t.rowFailed pa) := by
  unfold State.rowFailed
  dsimp only
  generalize hu : (t.modStack _ _) = u
  have g : StaysQuiet s u := by rw [← hu]; apply g.modStack <;> exact fun _ => rfl
  have k : StaysQuiet s (if (u.stack (stackOf pa)).rows = 0 then
      (((u.modStack (stackOf pa) fun x => { x with rowsBad := (t.bankOf pa, Config.dramRow (pa / 8)) :: x.rowsBad }).retireFrame
        0x380#10 1 pa).stackNotice 0x380#10 1 pa u.module.rlogSeq.toNat)
      else (u.modStack (stackOf pa) fun x => { x with rows := x.rows - 1 }).holdRegion (stackOf pa) .row (Config.dramRow (pa / 8)) (us 40) pa) := by
    split
    · apply StaysQuiet.stackNotice; apply StaysQuiet.retireFrame; apply g.modStack <;> exact fun _ => rfl
    · apply StaysQuiet.holdRegion; apply g.modStack <;> exact fun _ => rfl
  by_cases h : AMap.get 0 (t.stack (stackOf pa)).rowFail (t.bankOf pa) + 1 = 4
  · rw [if_pos h]; exact k.bankFailed pa
  · rw [if_neg h]; exact k

theorem StaysQuiet.rowError (g : StaysQuiet s t) (pa : Nat) : StaysQuiet s (t.rowError pa) := by
  unfold State.rowError
  dsimp only
  split
  · exact g
  · generalize hu : (t.modStack _ _) = u
    have g : StaysQuiet s u := by rw [← hu]; apply g.modStack <;> exact fun _ => rfl
    split
    · exact g.rowFailed pa
    · exact g

theorem StaysQuiet.markLost (g : StaysQuiet s t) (w : Nat) : StaysQuiet s (t.markLost w) :=
  (g.modStack (stackOf (8 * w)) (fun t => { t with ecc := AMap.erase t.ecc w, uncorr := sat 16 t.uncorr }) (fun _ => rfl)
    fun _ => rfl).same ⟨rfl, rfl, rfl, rfl, fun _ => rfl, fun _ => rfl⟩

/-- Resolving a word may begin a repair or retire a frame, but makes no step wait where nothing can. -/
theorem StaysQuiet.resolveWord (g : StaysQuiet s t) (w : Nat) : StaysQuiet s (t.resolveWord w) := by
  unfold State.resolveWord
  dsimp only
  split
  · exact g
  · split
    · split
      · apply StaysQuiet.rowError; apply g.modStack <;> exact fun _ => rfl
      · exact g.markLost w
    · split
      · apply StaysQuiet.rowError; apply g.modStack <;> exact fun _ => rfl
      · exact g

end

end Sys2Proof.Machine
end

