-- ==== Sys2Proof/Laws/PerInstr.lean ====
section
/-! SUPPORT. Per-instruction laws: the family `FirstBit`. -/

/-- Bit 0 of the first halfword tells the length of an instruction (R51): set in every 32-bit word, clear in
every 16-bit one, and an event has no encoding. -/
def Sys2Proof.Laws.FirstBit.Statement (i : Sys2Proof.Instr) : Prop :=
  match Sys2Proof.encode i with
  | .w32 w => Sys2Proof.bit w 0 = true ∧ i.len = 4
  | .w16 h => Sys2Proof.bit h 0 = false ∧ i.len = 2
  | .none => i.len = 0

namespace Sys2Proof.Laws

/-- The last bit of a word that ends in one more bit is that bit. -/
theorem bit_zero_append {n : Nat} (x : BitVec n) (b : BitVec 1) : bit (x ++ b) 0 = bit b 0 := by
  simp [bit, BitVec.getElem_append]

theorem FirstBit.add (d : Dst) (a : Src) (b : Src) (g : PredNo) : FirstBit.Statement (.add d a b g) := ⟨bit_zero_append _ _, rfl⟩
theorem FirstBit.sub (d : Dst) (a : Src) (b : Src) (g : PredNo) : FirstBit.Statement (.sub d a b g) := ⟨bit_zero_append _ _, rfl⟩
theorem FirstBit.mul (d : Dst) (a : Src) (b : Src) (g : PredNo) : FirstBit.Statement (.mul d a b g) := ⟨bit_zero_append _ _, rfl⟩
theorem FirstBit.mulh (d : Dst) (a : Src) (b : Src) (g : PredNo) : FirstBit.Statement (.mulh d a b g) := ⟨bit_zero_append _ _, rfl⟩
theorem FirstBit.div (d : Dst) (a : Src) (b : Src) (g : PredNo) : FirstBit.Statement (.div d a b g) := ⟨bit_zero_append _ _, rfl⟩
theorem FirstBit.rem (d : Dst) (a : Src) (b : Src) (g : PredNo) : FirstBit.Statement (.rem d a b g) := ⟨bit_zero_append _ _, rfl⟩
theorem FirstBit.and (d : Dst) (a : Src) (b : Src) (g : PredNo) : FirstBit.Statement (.and d a b g) := ⟨bit_zero_append _ _, rfl⟩
theorem FirstBit.or (d : Dst) (a : Src) (b : Src) (g : PredNo) : FirstBit.Statement (.or d a b g) := ⟨bit_zero_append _ _, rfl⟩
theorem FirstBit.xor (d : Dst) (a : Src) (b : Src) (g : PredNo) : FirstBit.Statement (.xor d a b g) := ⟨bit_zero_append _ _, rfl⟩
theorem FirstBit.shl (d : Dst) (a : Src) (b : Src) (g : PredNo) : FirstBit.Statement (.shl d a b g) := ⟨bit_zero_append _ _, rfl⟩
theorem FirstBit.shr (d : Dst) (a : Src) (b : Src) (g : PredNo) : FirstBit.Statement (.shr d a b g) := ⟨bit_zero_append _ _, rfl⟩
theorem FirstBit.sar (d : Dst) (a : Src) (b : Src) (g : PredNo) : FirstBit.Statement (.sar d a b g) := ⟨bit_zero_append _ _, rfl⟩
theorem FirstBit.sel (d : Dst) (a : Src) (b : Src) (p : PredNo) : FirstBit.Statement (.sel d a b p) := ⟨bit_zero_append _ _, rfl⟩
theorem FirstBit.min (d : Dst) (a : Src) (b : Src) (g : PredNo) : FirstBit.Statement (.min d a b g) := ⟨bit_zero_append _ _, rfl⟩
theorem FirstBit.max (d : Dst) (a : Src) (b : Src) (g : PredNo) : FirstBit.Statement (.max d a b g) := ⟨bit_zero_append _ _, rfl⟩
theorem FirstBit.cmpEq (pd : PredNo) (a : Src) (b : Src) (g : PredNo) : FirstBit.Statement (.cmpEq pd a b g) := ⟨bit_zero_append _ _, rfl⟩
theorem FirstBit.cmpNe (pd : PredNo) (a : Src) (b : Src) (g : PredNo) : FirstBit.Statement (.cmpNe pd a b g) := ⟨bit_zero_append _ _, rfl⟩
theorem FirstBit.cmpLt (pd : PredNo) (a : Src) (b : Src) (g : PredNo) : FirstBit.Statement (.cmpLt pd a b g) := ⟨bit_zero_append _ _, rfl⟩
theorem FirstBit.cmpGe (pd : PredNo) (a : Src) (b : Src) (g : PredNo) : FirstBit.Statement (.cmpGe pd a b g) := ⟨bit_zero_append _ _, rfl⟩
theorem FirstBit.cmpLe (pd : PredNo) (a : Src) (b : Src) (g : PredNo) : FirstBit.Statement (.cmpLe pd a b g) := ⟨bit_zero_append _ _, rfl⟩
theorem FirstBit.cmpGt (pd : PredNo) (a : Src) (b : Src) (g : PredNo) : FirstBit.Statement (.cmpGt pd a b g) := ⟨bit_zero_append _ _, rfl⟩
theorem FirstBit.cmpLtn (pd : PredNo) (a : Src) (b : Src) (g : PredNo) : FirstBit.Statement (.cmpLtn pd a b g) := ⟨bit_zero_append _ _, rfl⟩
theorem FirstBit.cmpGen (pd : PredNo) (a : Src) (b : Src) (g : PredNo) : FirstBit.Statement (.cmpGen pd a b g) := ⟨bit_zero_append _ _, rfl⟩
theorem FirstBit.cmpLen (pd : PredNo) (a : Src) (b : Src) (g : PredNo) : FirstBit.Statement (.cmpLen pd a b g) := ⟨bit_zero_append _ _, rfl⟩
theorem FirstBit.cmpGtn (pd : PredNo) (a : Src) (b : Src) (g : PredNo) : FirstBit.Statement (.cmpGtn pd a b g) := ⟨bit_zero_append _ _, rfl⟩
theorem FirstBit.cmpAny (pd : PredNo) (a : Src) (b : Src) (g : PredNo) : FirstBit.Statement (.cmpAny pd a b g) := ⟨bit_zero_append _ _, rfl⟩
theorem FirstBit.cmpNone (pd : PredNo) (a : Src) (b : Src) (g : PredNo) : FirstBit.Statement (.cmpNone pd a b g) := ⟨bit_zero_append _ _, rfl⟩
theorem FirstBit.cmpAll (pd : PredNo) (a : Src) (b : Src) (g : PredNo) : FirstBit.Statement (.cmpAll pd a b g) := ⟨bit_zero_append _ _, rfl⟩
theorem FirstBit.cmpNall (pd : PredNo) (a : Src) (b : Src) (g : PredNo) : FirstBit.Statement (.cmpNall pd a b g) := ⟨bit_zero_append _ _, rfl⟩
theorem FirstBit.cmpBit (pd : PredNo) (a : Src) (b : Src) (g : PredNo) : FirstBit.Statement (.cmpBit pd a b g) := ⟨bit_zero_append _ _, rfl⟩
theorem FirstBit.cmpNbit (pd : PredNo) (a : Src) (b : Src) (g : PredNo) : FirstBit.Statement (.cmpNbit pd a b g) := ⟨bit_zero_append _ _, rfl⟩
theorem FirstBit.addi (d : Dst) (a : Src) (imm : BitVec 10) : FirstBit.Statement (.addi d a imm) := ⟨bit_zero_append _ _, rfl⟩
theorem FirstBit.logiAnd (d : Dst) (a : Src) (v : BitVec 7) : FirstBit.Statement (.logiAnd d a v) := ⟨bit_zero_append _ _, rfl⟩
theorem FirstBit.logiOr (d : Dst) (a : Src) (v : BitVec 7) : FirstBit.Statement (.logiOr d a v) := ⟨bit_zero_append _ _, rfl⟩
theorem FirstBit.logiXor (d : Dst) (a : Src) (v : BitVec 7) : FirstBit.Statement (.logiXor d a v) := ⟨bit_zero_append _ _, rfl⟩
theorem FirstBit.logiAndn (d : Dst) (a : Src) (v : Src) : FirstBit.Statement (.logiAndn d a v) := ⟨bit_zero_append _ _, rfl⟩
theorem FirstBit.logiOrn (d : Dst) (a : Src) (v : Src) : FirstBit.Statement (.logiOrn d a v) := ⟨bit_zero_append _ _, rfl⟩
theorem FirstBit.logiXnor (d : Dst) (a : Src) (v : Src) : FirstBit.Statement (.logiXnor d a v) := ⟨bit_zero_append _ _, rfl⟩
theorem FirstBit.shiShl (d : Dst) (a : Src) (n : BitVec 6) : FirstBit.Statement (.shiShl d a n) := ⟨bit_zero_append _ _, rfl⟩
theorem FirstBit.shiShr (d : Dst) (a : Src) (n : BitVec 6) : FirstBit.Statement (.shiShr d a n) := ⟨bit_zero_append _ _, rfl⟩
theorem FirstBit.shiSar (d : Dst) (a : Src) (n : BitVec 6) : FirstBit.Statement (.shiSar d a n) := ⟨bit_zero_append _ _, rfl⟩
theorem FirstBit.shiRol (d : Dst) (a : Src) (n : BitVec 6) : FirstBit.Statement (.shiRol d a n) := ⟨bit_zero_append _ _, rfl⟩
theorem FirstBit.shiRor (d : Dst) (a : Src) (n : BitVec 6) : FirstBit.Statement (.shiRor d a n) := ⟨bit_zero_append _ _, rfl⟩
theorem FirstBit.lim (d : Dst) (imm : BitVec 17) : FirstBit.Statement (.lim d imm) := ⟨bit_zero_append _ _, rfl⟩
theorem FirstBit.bextU (d : Dst) (a : Src) (v : Src) : FirstBit.Statement (.bextU d a v) := ⟨bit_zero_append _ _, rfl⟩
theorem FirstBit.bextS (d : Dst) (a : Src) (v : Src) : FirstBit.Statement (.bextS d a v) := ⟨bit_zero_append _ _, rfl⟩
theorem FirstBit.bextI8 (d : Dst) (a : Src) (v : Src) : FirstBit.Statement (.bextI8 d a v) := ⟨bit_zero_append _ _, rfl⟩
theorem FirstBit.bextN8 (d : Dst) (a : Src) (v : Src) : FirstBit.Statement (.bextN8 d a v) := ⟨bit_zero_append _ _, rfl⟩
theorem FirstBit.bextI16 (d : Dst) (a : Src) (v : Src) : FirstBit.Statement (.bextI16 d a v) := ⟨bit_zero_append _ _, rfl⟩
theorem FirstBit.bextN16 (d : Dst) (a : Src) (v : Src) : FirstBit.Statement (.bextN16 d a v) := ⟨bit_zero_append _ _, rfl⟩
theorem FirstBit.bextI32 (d : Dst) (a : Src) (v : Src) : FirstBit.Statement (.bextI32 d a v) := ⟨bit_zero_append _ _, rfl⟩
theorem FirstBit.bextN32 (d : Dst) (a : Src) (v : Src) : FirstBit.Statement (.bextN32 d a v) := ⟨bit_zero_append _ _, rfl⟩
theorem FirstBit.binsIns (d : Dst) (a : Src) (v : Src) : FirstBit.Statement (.binsIns d a v) := ⟨bit_zero_append _ _, rfl⟩
theorem FirstBit.binsB8 (d : Dst) (a : Src) (v : Src) : FirstBit.Statement (.binsB8 d a v) := ⟨bit_zero_append _ _, rfl⟩
theorem FirstBit.binsB16 (d : Dst) (a : Src) (v : Src) : FirstBit.Statement (.binsB16 d a v) := ⟨bit_zero_append _ _, rfl⟩
theorem FirstBit.binsB32 (d : Dst) (a : Src) (v : Src) : FirstBit.Statement (.binsB32 d a v) := ⟨bit_zero_append _ _, rfl⟩
theorem FirstBit.fsh (d : Dst) (a : Src) (b : Src) (g : PredNo) : FirstBit.Statement (.fsh d a b g) := ⟨bit_zero_append _ _, rfl⟩
theorem FirstBit.bcntPop (d : Dst) (a : Src) : FirstBit.Statement (.bcntPop d a) := ⟨bit_zero_append _ _, rfl⟩
theorem FirstBit.bcntClz (d : Dst) (a : Src) : FirstBit.Statement (.bcntClz d a) := ⟨bit_zero_append _ _, rfl⟩
theorem FirstBit.bcntCtz (d : Dst) (a : Src) : FirstBit.Statement (.bcntCtz d a) := ⟨bit_zero_append _ _, rfl⟩
theorem FirstBit.bcntClo (d : Dst) (a : Src) : FirstBit.Statement (.bcntClo d a) := ⟨bit_zero_append _ _, rfl⟩
theorem FirstBit.bcntCto (d : Dst) (a : Src) : FirstBit.Statement (.bcntCto d a) := ⟨bit_zero_append _ _, rfl⟩
theorem FirstBit.bcntRev (d : Dst) (a : Src) : FirstBit.Statement (.bcntRev d a) := ⟨bit_zero_append _ _, rfl⟩
theorem FirstBit.bcntBsw (d : Dst) (a : Src) : FirstBit.Statement (.bcntBsw d a) := ⟨bit_zero_append _ _, rfl⟩
theorem FirstBit.brT (p : PredNo) (disp : BitVec 20) : FirstBit.Statement (.brT p disp) := ⟨bit_zero_append _ _, rfl⟩
theorem FirstBit.brF (p : PredNo) (disp : BitVec 20) : FirstBit.Statement (.brF p disp) := ⟨bit_zero_append _ _, rfl⟩
theorem FirstBit.j (disp : BitVec 24) : FirstBit.Statement (.j disp) := ⟨bit_zero_append _ _, rfl⟩
theorem FirstBit.jl (disp : BitVec 24) : FirstBit.Statement (.jl disp) := ⟨bit_zero_append _ _, rfl⟩
theorem FirstBit.jr (d : Dst) (a : Src) (imm : BitVec 10) : FirstBit.Statement (.jr d a imm) := ⟨bit_zero_append _ _, rfl⟩
theorem FirstBit.lset (k : BitVec 2) (a : Src) : FirstBit.Statement (.lset k a) := ⟨bit_zero_append _ _, rfl⟩
theorem FirstBit.lend (n : BitVec 2) (disp : BitVec 20) : FirstBit.Statement (.lend n disp) := ⟨bit_zero_append _ _, rfl⟩
theorem FirstBit.plogClr (pd : PredNo) (pa : PredNo) (pb : PredNo) (g : PredNo) : FirstBit.Statement (.plogClr pd pa pb g) := ⟨bit_zero_append _ _, rfl⟩
theorem FirstBit.plogNor (pd : PredNo) (pa : PredNo) (pb : PredNo) (g : PredNo) : FirstBit.Statement (.plogNor pd pa pb g) := ⟨bit_zero_append _ _, rfl⟩
theorem FirstBit.plogAndna (pd : PredNo) (pa : PredNo) (pb : PredNo) (g : PredNo) : FirstBit.Statement (.plogAndna pd pa pb g) := ⟨bit_zero_append _ _, rfl⟩
theorem FirstBit.plogNota (pd : PredNo) (pa : PredNo) (pb : PredNo) (g : PredNo) : FirstBit.Statement (.plogNota pd pa pb g) := ⟨bit_zero_append _ _, rfl⟩
theorem FirstBit.plogAndnb (pd : PredNo) (pa : PredNo) (pb : PredNo) (g : PredNo) : FirstBit.Statement (.plogAndnb pd pa pb g) := ⟨bit_zero_append _ _, rfl⟩
theorem FirstBit.plogNotb (pd : PredNo) (pa : PredNo) (pb : PredNo) (g : PredNo) : FirstBit.Statement (.plogNotb pd pa pb g) := ⟨bit_zero_append _ _, rfl⟩
theorem FirstBit.plogXor (pd : PredNo) (pa : PredNo) (pb : PredNo) (g : PredNo) : FirstBit.Statement (.plogXor pd pa pb g) := ⟨bit_zero_append _ _, rfl⟩
theorem FirstBit.plogNand (pd : PredNo) (pa : PredNo) (pb : PredNo) (g : PredNo) : FirstBit.Statement (.plogNand pd pa pb g) := ⟨bit_zero_append _ _, rfl⟩
theorem FirstBit.plogAnd (pd : PredNo) (pa : PredNo) (pb : PredNo) (g : PredNo) : FirstBit.Statement (.plogAnd pd pa pb g) := ⟨bit_zero_append _ _, rfl⟩
theorem FirstBit.plogXnor (pd : PredNo) (pa : PredNo) (pb : PredNo) (g : PredNo) : FirstBit.Statement (.plogXnor pd pa pb g) := ⟨bit_zero_append _ _, rfl⟩
theorem FirstBit.plogMovb (pd : PredNo) (pa : PredNo) (pb : PredNo) (g : PredNo) : FirstBit.Statement (.plogMovb pd pa pb g) := ⟨bit_zero_append _ _, rfl⟩
theorem FirstBit.plogOrna (pd : PredNo) (pa : PredNo) (pb : PredNo) (g : PredNo) : FirstBit.Statement (.plogOrna pd pa pb g) := ⟨bit_zero_append _ _, rfl⟩
theorem FirstBit.plogMova (pd : PredNo) (pa : PredNo) (pb : PredNo) (g : PredNo) : FirstBit.Statement (.plogMova pd pa pb g) := ⟨bit_zero_append _ _, rfl⟩
theorem FirstBit.plogOrnb (pd : PredNo) (pa : PredNo) (pb : PredNo) (g : PredNo) : FirstBit.Statement (.plogOrnb pd pa pb g) := ⟨bit_zero_append _ _, rfl⟩
theorem FirstBit.plogOr (pd : PredNo) (pa : PredNo) (pb : PredNo) (g : PredNo) : FirstBit.Statement (.plogOr pd pa pb g) := ⟨bit_zero_append _ _, rfl⟩
theorem FirstBit.plogSet (pd : PredNo) (pa : PredNo) (pb : PredNo) (g : PredNo) : FirstBit.Statement (.plogSet pd pa pb g) := ⟨bit_zero_append _ _, rfl⟩
theorem FirstBit.cset (a : Src) (mask : BitVec 8) : FirstBit.Statement (.cset a mask) := ⟨bit_zero_append _ _, rfl⟩
theorem FirstBit.adr (k : BitVec 2) (d : Dst) (a : Src) (v : Src) : FirstBit.Statement (.adr k d a v) := ⟨bit_zero_append _ _, rfl⟩
theorem FirstBit.hret (g : PredNo) : FirstBit.Statement (.hret g) := ⟨bit_zero_append _ _, rfl⟩
theorem FirstBit.hint (kind : BitVec 7) (imm : BitVec 17) : FirstBit.Statement (.hint kind imm) := ⟨bit_zero_append _ _, rfl⟩
theorem FirstBit.getcPc (d : Dst) : FirstBit.Statement (.getcPc d) := ⟨bit_zero_append _ _, rfl⟩
theorem FirstBit.getcHdr0 (d : Dst) : FirstBit.Statement (.getcHdr0 d) := ⟨bit_zero_append _ _, rfl⟩
theorem FirstBit.getcHdr1 (d : Dst) : FirstBit.Statement (.getcHdr1 d) := ⟨bit_zero_append _ _, rfl⟩
theorem FirstBit.getcPrd (d : Dst) : FirstBit.Statement (.getcPrd d) := ⟨bit_zero_append _ _, rfl⟩
theorem FirstBit.ld (d : Dst) (b : Src) (sz : BitVec 2) (off : BitVec 5) (g : PredNo) : FirstBit.Statement (.ld d b sz off g) := ⟨bit_zero_append _ _, rfl⟩
theorem FirstBit.ldn (d : Dst) (b : Src) (sz : BitVec 2) (off : BitVec 5) (g : PredNo) : FirstBit.Statement (.ldn d b sz off g) := ⟨bit_zero_append _ _, rfl⟩
theorem FirstBit.st (d : Src) (b : Src) (sz : BitVec 2) (off : BitVec 5) (g : PredNo) : FirstBit.Statement (.st d b sz off g) := ⟨bit_zero_append _ _, rfl⟩
theorem FirstBit.ldh (t : HandleNo) (b : Src) (off : BitVec 5) (g : PredNo) : FirstBit.Statement (.ldh t b off g) := ⟨bit_zero_append _ _, rfl⟩
theorem FirstBit.sth (t : HandleNo) (b : Src) (off : BitVec 5) (g : PredNo) : FirstBit.Statement (.sth t b off g) := ⟨bit_zero_append _ _, rfl⟩
theorem FirstBit.amoAdd (d : Dst) (a : Src) (v : Src) : FirstBit.Statement (.amoAdd d a v) := ⟨bit_zero_append _ _, rfl⟩
theorem FirstBit.amoAnd (d : Dst) (a : Src) (v : Src) : FirstBit.Statement (.amoAnd d a v) := ⟨bit_zero_append _ _, rfl⟩
theorem FirstBit.amoOr (d : Dst) (a : Src) (v : Src) : FirstBit.Statement (.amoOr d a v) := ⟨bit_zero_append _ _, rfl⟩
theorem FirstBit.amoXor (d : Dst) (a : Src) (v : Src) : FirstBit.Statement (.amoXor d a v) := ⟨bit_zero_append _ _, rfl⟩
theorem FirstBit.amoMin (d : Dst) (a : Src) (v : Src) : FirstBit.Statement (.amoMin d a v) := ⟨bit_zero_append _ _, rfl⟩
theorem FirstBit.amoMax (d : Dst) (a : Src) (v : Src) : FirstBit.Statement (.amoMax d a v) := ⟨bit_zero_append _ _, rfl⟩
theorem FirstBit.amoSwp (d : Dst) (a : Src) (v : Src) : FirstBit.Statement (.amoSwp d a v) := ⟨bit_zero_append _ _, rfl⟩
theorem FirstBit.amoA96 (d : Dst) (a : Src) (v : Src) : FirstBit.Statement (.amoA96 d a v) := ⟨bit_zero_append _ _, rfl⟩
theorem FirstBit.casW (d : Dst) (a : Src) (v : Src) : FirstBit.Statement (.casW d a v) := ⟨bit_zero_append _ _, rfl⟩
theorem FirstBit.casD (d : Dst) (a : Src) (v : Src) : FirstBit.Statement (.casD d a v) := ⟨bit_zero_append _ _, rfl⟩
theorem FirstBit.qclaim (d : Dst) (a : Src) (v : Src) : FirstBit.Statement (.qclaim d a v) := ⟨bit_zero_append _ _, rfl⟩
theorem FirstBit.fenceAcq (scope : BitVec 3) : FirstBit.Statement (.fenceAcq scope) := ⟨bit_zero_append _ _, rfl⟩
theorem FirstBit.fenceRel (scope : BitVec 3) : FirstBit.Statement (.fenceRel scope) := ⟨bit_zero_append _ _, rfl⟩
theorem FirstBit.fenceFull (scope : BitVec 3) : FirstBit.Statement (.fenceFull scope) := ⟨bit_zero_append _ _, rfl⟩
theorem FirstBit.waddrEq (d : Dst) (a : Src) (v : Src) : FirstBit.Statement (.waddrEq d a v) := ⟨bit_zero_append _ _, rfl⟩
theorem FirstBit.waddrNe (d : Dst) (a : Src) (v : Src) : FirstBit.Statement (.waddrNe d a v) := ⟨bit_zero_append _ _, rfl⟩
theorem FirstBit.waddrGes (d : Dst) (a : Src) (v : Src) : FirstBit.Statement (.waddrGes d a v) := ⟨bit_zero_append _ _, rfl⟩
theorem FirstBit.waddrAny (d : Dst) (a : Src) (v : Src) : FirstBit.Statement (.waddrAny d a v) := ⟨bit_zero_append _ _, rfl⟩
theorem FirstBit.wbead (ld : BitVec 6) (st : BitVec 6) (cp : BitVec 6) (tl : BitVec 6) : FirstBit.Statement (.wbead ld st cp tl) := ⟨bit_zero_append _ _, rfl⟩
theorem FirstBit.pwld (d : Dst) (b : Src) (sz : BitVec 2) (sx : BitVec 1) (w : BitVec 3) (g : PredNo) : FirstBit.Statement (.pwld d b sz sx w g) := ⟨bit_zero_append _ _, rfl⟩
theorem FirstBit.ldx (d : Dst) (b : Src) (sz : BitVec 2) (sx : BitVec 1) (k : BitVec 2) (g : PredNo) : FirstBit.Statement (.ldx d b sz sx k g) := ⟨bit_zero_append _ _, rfl⟩
theorem FirstBit.stx (d : Src) (b : Src) (sz : BitVec 2) (k : BitVec 2) (g : PredNo) : FirstBit.Statement (.stx d b sz k g) := ⟨bit_zero_append _ _, rfl⟩
theorem FirstBit.send (a : Src) (b : Src) (type : BitVec 8) (mb : BitVec 2) : FirstBit.Statement (.send a b type mb) := ⟨bit_zero_append _ _, rfl⟩
theorem FirstBit.sendr (a : Src) (b : Src) (type : BitVec 8) (mb : BitVec 2) : FirstBit.Statement (.sendr a b type mb) := ⟨bit_zero_append _ _, rfl⟩
theorem FirstBit.mbcfgSet (d : Dst) (a : Src) (v : Src) : FirstBit.Statement (.mbcfgSet d a v) := ⟨bit_zero_append _ _, rfl⟩
theorem FirstBit.mbcfgOff (d : Dst) (v : Src) : FirstBit.Statement (.mbcfgOff d v) := ⟨bit_zero_append _ _, rfl⟩
theorem FirstBit.mbcfgKey (d : Dst) (a : Src) (v : Src) : FirstBit.Statement (.mbcfgKey d a v) := ⟨bit_zero_append _ _, rfl⟩
theorem FirstBit.mbcfgStat (d : Dst) (v : Src) : FirstBit.Statement (.mbcfgStat d v) := ⟨bit_zero_append _ _, rfl⟩
theorem FirstBit.mbcfgRcan (d : Dst) : FirstBit.Statement (.mbcfgRcan d) := ⟨bit_zero_append _ _, rfl⟩
theorem FirstBit.actorNew (d : Dst) (a : Src) : FirstBit.Statement (.actorNew d a) := ⟨bit_zero_append _ _, rfl⟩
theorem FirstBit.actorExit : FirstBit.Statement (.actorExit) := ⟨bit_zero_append _ _, rfl⟩
theorem FirstBit.actorKill (d : Dst) (a : Src) : FirstBit.Statement (.actorKill d a) := ⟨bit_zero_append _ _, rfl⟩
theorem FirstBit.launch (d : Dst) (a : Src) (v : Src) : FirstBit.Statement (.launch d a v) := ⟨bit_zero_append _ _, rfl⟩
theorem FirstBit.joinStat (d : Dst) (a : Src) : FirstBit.Statement (.joinStat d a) := ⟨bit_zero_append _ _, rfl⟩
theorem FirstBit.joinKill (d : Dst) (a : Src) : FirstBit.Statement (.joinKill d a) := ⟨bit_zero_append _ _, rfl⟩
theorem FirstBit.wlapp (d : Dst) (a : Src) (v : Src) : FirstBit.Statement (.wlapp d a v) := ⟨bit_zero_append _ _, rfl⟩
theorem FirstBit.wltakeCore (d : Dst) (v : Src) : FirstBit.Statement (.wltakeCore d v) := ⟨bit_zero_append _ _, rfl⟩
theorem FirstBit.wltakeQuad (d : Dst) (v : Src) : FirstBit.Statement (.wltakeQuad d v) := ⟨bit_zero_append _ _, rfl⟩
theorem FirstBit.wltakeClus (d : Dst) (v : Src) : FirstBit.Statement (.wltakeClus d v) := ⟨bit_zero_append _ _, rfl⟩
theorem FirstBit.barr (d : Dst) (a : Src) : FirstBit.Statement (.barr d a) := ⟨bit_zero_append _ _, rfl⟩
theorem FirstBit.bwait (d : Dst) (a : Src) (v : Src) : FirstBit.Statement (.bwait d a v) := ⟨bit_zero_append _ _, rfl⟩
theorem FirstBit.balloc (scope : BitVec 3) (d : Dst) (a : Src) : FirstBit.Statement (.balloc scope d a) := ⟨bit_zero_append _ _, rfl⟩
theorem FirstBit.bfree (d : Dst) (a : Src) : FirstBit.Statement (.bfree d a) := ⟨bit_zero_append _ _, rfl⟩
theorem FirstBit.quiesArm (d : Dst) (a : Src) (v : Src) : FirstBit.Statement (.quiesArm d a v) := ⟨bit_zero_append _ _, rfl⟩
theorem FirstBit.quiesDisarm (d : Dst) (a : Src) (v : Src) : FirstBit.Statement (.quiesDisarm d a v) := ⟨bit_zero_append _ _, rfl⟩
theorem FirstBit.quiesTest (d : Dst) (a : Src) (v : Src) : FirstBit.Statement (.quiesTest d a v) := ⟨bit_zero_append _ _, rfl⟩
theorem FirstBit.rgsetRd (d : Dst) (a : Src) (v : Src) : FirstBit.Statement (.rgsetRd d a v) := ⟨bit_zero_append _ _, rfl⟩
theorem FirstBit.rgsetWr (d : Dst) (a : Src) (v : Src) : FirstBit.Statement (.rgsetWr d a v) := ⟨bit_zero_append _ _, rfl⟩
theorem FirstBit.rgsetClr (d : Dst) (a : Src) : FirstBit.Statement (.rgsetClr d a) := ⟨bit_zero_append _ _, rfl⟩
theorem FirstBit.mma (td : HandleNo) (ta : HandleNo) (tb : HandleNo) (g : PredNo) : FirstBit.Statement (.mma td ta tb g) := ⟨bit_zero_append _ _, rfl⟩
theorem FirstBit.mzeroZero (td : HandleNo) (g : PredNo) : FirstBit.Statement (.mzeroZero td g) := ⟨bit_zero_append _ _, rfl⟩
theorem FirstBit.mzeroLoad (td : HandleNo) (ta : HandleNo) (g : PredNo) : FirstBit.Statement (.mzeroLoad td ta g) := ⟨bit_zero_append _ _, rfl⟩
theorem FirstBit.mzeroAdd (td : HandleNo) (ta : HandleNo) (g : PredNo) : FirstBit.Statement (.mzeroAdd td ta g) := ⟨bit_zero_append _ _, rfl⟩
theorem FirstBit.mzeroStat (td : HandleNo) (ta : HandleNo) (g : PredNo) : FirstBit.Statement (.mzeroStat td ta g) := ⟨bit_zero_append _ _, rfl⟩
theorem FirstBit.mcvtRne (td : HandleNo) (ta : HandleNo) (ctl : BitVec 1) (g : PredNo) : FirstBit.Statement (.mcvtRne td ta ctl g) := ⟨bit_zero_append _ _, rfl⟩
theorem FirstBit.mcvtRtz (td : HandleNo) (ta : HandleNo) (ctl : BitVec 1) (g : PredNo) : FirstBit.Statement (.mcvtRtz td ta ctl g) := ⟨bit_zero_append _ _, rfl⟩
theorem FirstBit.mcvtRdn (td : HandleNo) (ta : HandleNo) (ctl : BitVec 1) (g : PredNo) : FirstBit.Statement (.mcvtRdn td ta ctl g) := ⟨bit_zero_append _ _, rfl⟩
theorem FirstBit.mcvtRup (td : HandleNo) (ta : HandleNo) (ctl : BitVec 1) (g : PredNo) : FirstBit.Statement (.mcvtRup td ta ctl g) := ⟨bit_zero_append _ _, rfl⟩
theorem FirstBit.mcvtSrk (td : HandleNo) (ta : HandleNo) (ctl : BitVec 1) (g : PredNo) : FirstBit.Statement (.mcvtSrk td ta ctl g) := ⟨bit_zero_append _ _, rfl⟩
theorem FirstBit.mresc (td : HandleNo) (ta : HandleNo) (tb : HandleNo) (g : PredNo) : FirstBit.Statement (.mresc td ta tb g) := ⟨bit_zero_append _ _, rfl⟩
theorem FirstBit.mstatRd (td : HandleNo) (ta : HandleNo) (g : PredNo) : FirstBit.Statement (.mstatRd td ta g) := ⟨bit_zero_append _ _, rfl⟩
theorem FirstBit.mstatRdclr (td : HandleNo) (ta : HandleNo) (g : PredNo) : FirstBit.Statement (.mstatRdclr td ta g) := ⟨bit_zero_append _ _, rfl⟩
theorem FirstBit.manch (td : HandleNo) (g : PredNo) : FirstBit.Statement (.manch td g) := ⟨bit_zero_append _ _, rfl⟩
theorem FirstBit.mbput (td : HandleNo) (ta : HandleNo) (g : PredNo) : FirstBit.Statement (.mbput td ta g) := ⟨bit_zero_append _ _, rfl⟩
theorem FirstBit.mpost (td : HandleNo) (g : PredNo) : FirstBit.Statement (.mpost td g) := ⟨bit_zero_append _ _, rfl⟩
theorem FirstBit.vmapAdd (td : HandleNo) (ta : HandleNo) (tb : HandleNo) (ctl : BitVec 3) (g : PredNo) : FirstBit.Statement (.vmapAdd td ta tb ctl g) := ⟨bit_zero_append _ _, rfl⟩
theorem FirstBit.vmapSub (td : HandleNo) (ta : HandleNo) (tb : HandleNo) (ctl : BitVec 3) (g : PredNo) : FirstBit.Statement (.vmapSub td ta tb ctl g) := ⟨bit_zero_append _ _, rfl⟩
theorem FirstBit.vmapMul (td : HandleNo) (ta : HandleNo) (tb : HandleNo) (ctl : BitVec 3) (g : PredNo) : FirstBit.Statement (.vmapMul td ta tb ctl g) := ⟨bit_zero_append _ _, rfl⟩
theorem FirstBit.vmapMin (td : HandleNo) (ta : HandleNo) (tb : HandleNo) (ctl : BitVec 3) (g : PredNo) : FirstBit.Statement (.vmapMin td ta tb ctl g) := ⟨bit_zero_append _ _, rfl⟩
theorem FirstBit.vmapMax (td : HandleNo) (ta : HandleNo) (tb : HandleNo) (ctl : BitVec 3) (g : PredNo) : FirstBit.Statement (.vmapMax td ta tb ctl g) := ⟨bit_zero_append _ _, rfl⟩
theorem FirstBit.vmapAbs (td : HandleNo) (ta : HandleNo) (ctl : BitVec 3) (g : PredNo) : FirstBit.Statement (.vmapAbs td ta ctl g) := ⟨bit_zero_append _ _, rfl⟩
theorem FirstBit.vmapNeg (td : HandleNo) (ta : HandleNo) (ctl : BitVec 3) (g : PredNo) : FirstBit.Statement (.vmapNeg td ta ctl g) := ⟨bit_zero_append _ _, rfl⟩
theorem FirstBit.vfmaFma (td : HandleNo) (ta : HandleNo) (tb : HandleNo) (ctl : BitVec 3) (g : PredNo) : FirstBit.Statement (.vfmaFma td ta tb ctl g) := ⟨bit_zero_append _ _, rfl⟩
theorem FirstBit.vfmaFms (td : HandleNo) (ta : HandleNo) (tb : HandleNo) (ctl : BitVec 3) (g : PredNo) : FirstBit.Statement (.vfmaFms td ta tb ctl g) := ⟨bit_zero_append _ _, rfl⟩
theorem FirstBit.vfmaFnma (td : HandleNo) (ta : HandleNo) (tb : HandleNo) (ctl : BitVec 3) (g : PredNo) : FirstBit.Statement (.vfmaFnma td ta tb ctl g) := ⟨bit_zero_append _ _, rfl⟩
theorem FirstBit.vfmaFnms (td : HandleNo) (ta : HandleNo) (tb : HandleNo) (ctl : BitVec 3) (g : PredNo) : FirstBit.Statement (.vfmaFnms td ta tb ctl g) := ⟨bit_zero_append _ _, rfl⟩
theorem FirstBit.vcmpEq (td : HandleNo) (ta : HandleNo) (tb : HandleNo) (g : PredNo) : FirstBit.Statement (.vcmpEq td ta tb g) := ⟨bit_zero_append _ _, rfl⟩
theorem FirstBit.vcmpNe (td : HandleNo) (ta : HandleNo) (tb : HandleNo) (g : PredNo) : FirstBit.Statement (.vcmpNe td ta tb g) := ⟨bit_zero_append _ _, rfl⟩
theorem FirstBit.vcmpLt (td : HandleNo) (ta : HandleNo) (tb : HandleNo) (g : PredNo) : FirstBit.Statement (.vcmpLt td ta tb g) := ⟨bit_zero_append _ _, rfl⟩
theorem FirstBit.vcmpLe (td : HandleNo) (ta : HandleNo) (tb : HandleNo) (g : PredNo) : FirstBit.Statement (.vcmpLe td ta tb g) := ⟨bit_zero_append _ _, rfl⟩
theorem FirstBit.vcmpGt (td : HandleNo) (ta : HandleNo) (tb : HandleNo) (g : PredNo) : FirstBit.Statement (.vcmpGt td ta tb g) := ⟨bit_zero_append _ _, rfl⟩
theorem FirstBit.vcmpGe (td : HandleNo) (ta : HandleNo) (tb : HandleNo) (g : PredNo) : FirstBit.Statement (.vcmpGe td ta tb g) := ⟨bit_zero_append _ _, rfl⟩
theorem FirstBit.vcmpUn (td : HandleNo) (ta : HandleNo) (tb : HandleNo) (g : PredNo) : FirstBit.Statement (.vcmpUn td ta tb g) := ⟨bit_zero_append _ _, rfl⟩
theorem FirstBit.vcmpOrd (td : HandleNo) (ta : HandleNo) (tb : HandleNo) (g : PredNo) : FirstBit.Statement (.vcmpOrd td ta tb g) := ⟨bit_zero_append _ _, rfl⟩
theorem FirstBit.vlogAnd (td : HandleNo) (ta : HandleNo) (tb : HandleNo) (g : PredNo) : FirstBit.Statement (.vlogAnd td ta tb g) := ⟨bit_zero_append _ _, rfl⟩
theorem FirstBit.vlogOr (td : HandleNo) (ta : HandleNo) (tb : HandleNo) (g : PredNo) : FirstBit.Statement (.vlogOr td ta tb g) := ⟨bit_zero_append _ _, rfl⟩
theorem FirstBit.vlogXor (td : HandleNo) (ta : HandleNo) (tb : HandleNo) (g : PredNo) : FirstBit.Statement (.vlogXor td ta tb g) := ⟨bit_zero_append _ _, rfl⟩
theorem FirstBit.vlogAndn (td : HandleNo) (ta : HandleNo) (tb : HandleNo) (g : PredNo) : FirstBit.Statement (.vlogAndn td ta tb g) := ⟨bit_zero_append _ _, rfl⟩
theorem FirstBit.vlogNot (td : HandleNo) (ta : HandleNo) (g : PredNo) : FirstBit.Statement (.vlogNot td ta g) := ⟨bit_zero_append _ _, rfl⟩
theorem FirstBit.vlogMnot (td : HandleNo) (ta : HandleNo) (g : PredNo) : FirstBit.Statement (.vlogMnot td ta g) := ⟨bit_zero_append _ _, rfl⟩
theorem FirstBit.vshfShl (td : HandleNo) (ta : HandleNo) (tb : HandleNo) (g : PredNo) : FirstBit.Statement (.vshfShl td ta tb g) := ⟨bit_zero_append _ _, rfl⟩
theorem FirstBit.vshfShr (td : HandleNo) (ta : HandleNo) (tb : HandleNo) (g : PredNo) : FirstBit.Statement (.vshfShr td ta tb g) := ⟨bit_zero_append _ _, rfl⟩
theorem FirstBit.vshfSar (td : HandleNo) (ta : HandleNo) (tb : HandleNo) (g : PredNo) : FirstBit.Statement (.vshfSar td ta tb g) := ⟨bit_zero_append _ _, rfl⟩
theorem FirstBit.vshfRshr (td : HandleNo) (ta : HandleNo) (tb : HandleNo) (g : PredNo) : FirstBit.Statement (.vshfRshr td ta tb g) := ⟨bit_zero_append _ _, rfl⟩
theorem FirstBit.vredSum (td : HandleNo) (ta : HandleNo) (ctl : BitVec 3) (g : PredNo) : FirstBit.Statement (.vredSum td ta ctl g) := ⟨bit_zero_append _ _, rfl⟩
theorem FirstBit.vredMax (td : HandleNo) (ta : HandleNo) (ctl : BitVec 3) (g : PredNo) : FirstBit.Statement (.vredMax td ta ctl g) := ⟨bit_zero_append _ _, rfl⟩
theorem FirstBit.vredMin (td : HandleNo) (ta : HandleNo) (ctl : BitVec 3) (g : PredNo) : FirstBit.Statement (.vredMin td ta ctl g) := ⟨bit_zero_append _ _, rfl⟩
theorem FirstBit.vredAmax (td : HandleNo) (ta : HandleNo) (ctl : BitVec 3) (g : PredNo) : FirstBit.Statement (.vredAmax td ta ctl g) := ⟨bit_zero_append _ _, rfl⟩
theorem FirstBit.vredImax (td : HandleNo) (ta : HandleNo) (g : PredNo) : FirstBit.Statement (.vredImax td ta g) := ⟨bit_zero_append _ _, rfl⟩
theorem FirstBit.vredImin (td : HandleNo) (ta : HandleNo) (g : PredNo) : FirstBit.Statement (.vredImin td ta g) := ⟨bit_zero_append _ _, rfl⟩
theorem FirstBit.vxfExp2 (td : HandleNo) (ta : HandleNo) (ctl : BitVec 3) (g : PredNo) : FirstBit.Statement (.vxfExp2 td ta ctl g) := ⟨bit_zero_append _ _, rfl⟩
theorem FirstBit.vxfLog2 (td : HandleNo) (ta : HandleNo) (ctl : BitVec 3) (g : PredNo) : FirstBit.Statement (.vxfLog2 td ta ctl g) := ⟨bit_zero_append _ _, rfl⟩
theorem FirstBit.vxfRcp (td : HandleNo) (ta : HandleNo) (ctl : BitVec 3) (g : PredNo) : FirstBit.Statement (.vxfRcp td ta ctl g) := ⟨bit_zero_append _ _, rfl⟩
theorem FirstBit.vxfRsqrt (td : HandleNo) (ta : HandleNo) (ctl : BitVec 3) (g : PredNo) : FirstBit.Statement (.vxfRsqrt td ta ctl g) := ⟨bit_zero_append _ _, rfl⟩
theorem FirstBit.vxfSin (td : HandleNo) (ta : HandleNo) (ctl : BitVec 3) (g : PredNo) : FirstBit.Statement (.vxfSin td ta ctl g) := ⟨bit_zero_append _ _, rfl⟩
theorem FirstBit.vxfCos (td : HandleNo) (ta : HandleNo) (ctl : BitVec 3) (g : PredNo) : FirstBit.Statement (.vxfCos td ta ctl g) := ⟨bit_zero_append _ _, rfl⟩
theorem FirstBit.vcvtRne (td : HandleNo) (ta : HandleNo) (ctl : BitVec 1) (g : PredNo) : FirstBit.Statement (.vcvtRne td ta ctl g) := ⟨bit_zero_append _ _, rfl⟩
theorem FirstBit.vcvtRtz (td : HandleNo) (ta : HandleNo) (ctl : BitVec 1) (g : PredNo) : FirstBit.Statement (.vcvtRtz td ta ctl g) := ⟨bit_zero_append _ _, rfl⟩
theorem FirstBit.vcvtRdn (td : HandleNo) (ta : HandleNo) (ctl : BitVec 1) (g : PredNo) : FirstBit.Statement (.vcvtRdn td ta ctl g) := ⟨bit_zero_append _ _, rfl⟩
theorem FirstBit.vcvtRup (td : HandleNo) (ta : HandleNo) (ctl : BitVec 1) (g : PredNo) : FirstBit.Statement (.vcvtRup td ta ctl g) := ⟨bit_zero_append _ _, rfl⟩
theorem FirstBit.vcvtSrk (td : HandleNo) (ta : HandleNo) (ctl : BitVec 1) (g : PredNo) : FirstBit.Statement (.vcvtSrk td ta ctl g) := ⟨bit_zero_append _ _, rfl⟩
theorem FirstBit.vselSel (td : HandleNo) (ta : HandleNo) (tb : HandleNo) (g : PredNo) : FirstBit.Statement (.vselSel td ta tb g) := ⟨bit_zero_append _ _, rfl⟩
theorem FirstBit.vselGath (td : HandleNo) (ta : HandleNo) (tb : HandleNo) (g : PredNo) : FirstBit.Statement (.vselGath td ta tb g) := ⟨bit_zero_append _ _, rfl⟩
theorem FirstBit.vselRgath (td : HandleNo) (ta : HandleNo) (tb : HandleNo) (g : PredNo) : FirstBit.Statement (.vselRgath td ta tb g) := ⟨bit_zero_append _ _, rfl⟩
theorem FirstBit.vselCmpr (td : HandleNo) (ta : HandleNo) (tb : HandleNo) (g : PredNo) : FirstBit.Statement (.vselCmpr td ta tb g) := ⟨bit_zero_append _ _, rfl⟩
theorem FirstBit.vpermTr (td : HandleNo) (ta : HandleNo) (g : PredNo) : FirstBit.Statement (.vpermTr td ta g) := ⟨bit_zero_append _ _, rfl⟩
theorem FirstBit.vpermRev (td : HandleNo) (ta : HandleNo) (g : PredNo) : FirstBit.Statement (.vpermRev td ta g) := ⟨bit_zero_append _ _, rfl⟩
theorem FirstBit.vpermZip (td : HandleNo) (ta : HandleNo) (g : PredNo) : FirstBit.Statement (.vpermZip td ta g) := ⟨bit_zero_append _ _, rfl⟩
theorem FirstBit.vpermUnzip (td : HandleNo) (ta : HandleNo) (g : PredNo) : FirstBit.Statement (.vpermUnzip td ta g) := ⟨bit_zero_append _ _, rfl⟩
theorem FirstBit.lpostCp (td : HandleNo) (ctl : BitVec 2) (g : PredNo) : FirstBit.Statement (.lpostCp td ctl g) := ⟨bit_zero_append _ _, rfl⟩
theorem FirstBit.lpostPkt (td : HandleNo) (ctl : BitVec 2) (g : PredNo) : FirstBit.Statement (.lpostPkt td ctl g) := ⟨bit_zero_append _ _, rfl⟩
theorem FirstBit.lshapeElem (td : HandleNo) (ta : HandleNo) (ctl : BitVec 2) (g : PredNo) : FirstBit.Statement (.lshapeElem td ta ctl g) := ⟨bit_zero_append _ _, rfl⟩
theorem FirstBit.lshapeScale (td : HandleNo) (ta : HandleNo) (ctl : BitVec 2) (g : PredNo) : FirstBit.Statement (.lshapeScale td ta ctl g) := ⟨bit_zero_append _ _, rfl⟩
theorem FirstBit.lqctlBind (d : Dst) (a : Src) : FirstBit.Statement (.lqctlBind d a) := ⟨bit_zero_append _ _, rfl⟩
theorem FirstBit.lqctlRing (d : Dst) (a : Src) : FirstBit.Statement (.lqctlRing d a) := ⟨bit_zero_append _ _, rfl⟩
theorem FirstBit.lqctlStat (d : Dst) (a : Src) : FirstBit.Statement (.lqctlStat d a) := ⟨bit_zero_append _ _, rfl⟩
theorem FirstBit.lqctlUnbind (d : Dst) (a : Src) : FirstBit.Statement (.lqctlUnbind d a) := ⟨bit_zero_append _ _, rfl⟩
theorem FirstBit.kplan (td : HandleNo) (ta : HandleNo) (ctl : BitVec 2) (g : PredNo) : FirstBit.Statement (.kplan td ta ctl g) := ⟨bit_zero_append _ _, rfl⟩
theorem FirstBit.kplayCp (td : HandleNo) (ctl : BitVec 2) (g : PredNo) : FirstBit.Statement (.kplayCp td ctl g) := ⟨bit_zero_append _ _, rfl⟩
theorem FirstBit.kplayFlag (td : HandleNo) (ctl : BitVec 2) (g : PredNo) : FirstBit.Statement (.kplayFlag td ctl g) := ⟨bit_zero_append _ _, rfl⟩
theorem FirstBit.kcommBind (td : HandleNo) (ta : HandleNo) (g : PredNo) : FirstBit.Statement (.kcommBind td ta g) := ⟨bit_zero_append _ _, rfl⟩
theorem FirstBit.kcommFree (td : HandleNo) (ctl : BitVec 2) (g : PredNo) : FirstBit.Statement (.kcommFree td ctl g) := ⟨bit_zero_append _ _, rfl⟩
theorem FirstBit.kabrt (d : Dst) (a : Src) : FirstBit.Statement (.kabrt d a) := ⟨bit_zero_append _ _, rfl⟩
theorem FirstBit.qpostLd (td : HandleNo) (ta : HandleNo) (tb : HandleNo) (g : PredNo) : FirstBit.Statement (.qpostLd td ta tb g) := ⟨bit_zero_append _ _, rfl⟩
theorem FirstBit.qpostFlag (td : HandleNo) (ta : HandleNo) (tb : HandleNo) (g : PredNo) : FirstBit.Statement (.qpostFlag td ta tb g) := ⟨bit_zero_append _ _, rfl⟩
theorem FirstBit.qapndPut (td : HandleNo) (ta : HandleNo) (g : PredNo) : FirstBit.Statement (.qapndPut td ta g) := ⟨bit_zero_append _ _, rfl⟩
theorem FirstBit.qapndAdv (td : HandleNo) (ta : HandleNo) (g : PredNo) : FirstBit.Statement (.qapndAdv td ta g) := ⟨bit_zero_append _ _, rfl⟩
theorem FirstBit.qapndClr (td : HandleNo) (g : PredNo) : FirstBit.Statement (.qapndClr td g) := ⟨bit_zero_append _ _, rfl⟩
theorem FirstBit.qstatRows (d : Dst) (a : Src) : FirstBit.Statement (.qstatRows d a) := ⟨bit_zero_append _ _, rfl⟩
theorem FirstBit.qstatUnit (d : Dst) (a : Src) : FirstBit.Statement (.qstatUnit d a) := ⟨bit_zero_append _ _, rfl⟩
theorem FirstBit.csrRd (d : Dst) (csr : BitVec 12) : FirstBit.Statement (.csrRd d csr) := ⟨bit_zero_append _ _, rfl⟩
theorem FirstBit.csrWr (d : Src) (csr : BitVec 12) : FirstBit.Statement (.csrWr d csr) := ⟨bit_zero_append _ _, rfl⟩
theorem FirstBit.csrSet (d : Src) (csr : BitVec 12) : FirstBit.Statement (.csrSet d csr) := ⟨bit_zero_append _ _, rfl⟩
theorem FirstBit.csrClr (d : Src) (csr : BitVec 12) : FirstBit.Statement (.csrClr d csr) := ⟨bit_zero_append _ _, rfl⟩
theorem FirstBit.csrSwp (d : Dst) (csr : BitVec 12) : FirstBit.Statement (.csrSwp d csr) := ⟨bit_zero_append _ _, rfl⟩
theorem FirstBit.sysCommit (d : Dst) : FirstBit.Statement (.sysCommit d) := ⟨bit_zero_append _ _, rfl⟩
theorem FirstBit.sysEret : FirstBit.Statement (.sysEret) := ⟨bit_zero_append _ _, rfl⟩
theorem FirstBit.sysCkpt (d : Dst) : FirstBit.Statement (.sysCkpt d) := ⟨bit_zero_append _ _, rfl⟩
theorem FirstBit.tlbiRange (d : Dst) (a : Src) (v : Src) : FirstBit.Statement (.tlbiRange d a v) := ⟨bit_zero_append _ _, rfl⟩
theorem FirstBit.tlbiAsid (d : Dst) (v : Src) : FirstBit.Statement (.tlbiAsid d v) := ⟨bit_zero_append _ _, rfl⟩
theorem FirstBit.tlbiAll (d : Dst) : FirstBit.Statement (.tlbiAll d) := ⟨bit_zero_append _ _, rfl⟩
theorem FirstBit.ctxEvict (d : Dst) (a : Src) (v : Src) : FirstBit.Statement (.ctxEvict d a v) := ⟨bit_zero_append _ _, rfl⟩
theorem FirstBit.ctxRestore (d : Dst) (a : Src) (v : Src) : FirstBit.Statement (.ctxRestore d a v) := ⟨bit_zero_append _ _, rfl⟩
theorem FirstBit.ctxResume (d : Dst) (a : Src) (v : Src) : FirstBit.Statement (.ctxResume d a v) := ⟨bit_zero_append _ _, rfl⟩
theorem FirstBit.ctxDestroy (d : Dst) (a : Src) (v : Src) : FirstBit.Statement (.ctxDestroy d a v) := ⟨bit_zero_append _ _, rfl⟩
theorem FirstBit.ctxPreempt (d : Dst) (a : Src) : FirstBit.Statement (.ctxPreempt d a) := ⟨bit_zero_append _ _, rfl⟩
theorem FirstBit.ctxFreeze (d : Dst) (a : Src) : FirstBit.Statement (.ctxFreeze d a) := ⟨bit_zero_append _ _, rfl⟩
theorem FirstBit.zadd (x : ZReg) (y : ZReg) : FirstBit.Statement (.zadd x y) := ⟨bit_zero_append _ _, rfl⟩
theorem FirstBit.zsub (x : ZReg) (y : ZReg) : FirstBit.Statement (.zsub x y) := ⟨bit_zero_append _ _, rfl⟩
theorem FirstBit.zand (x : ZReg) (y : ZReg) : FirstBit.Statement (.zand x y) := ⟨bit_zero_append _ _, rfl⟩
theorem FirstBit.zor (x : ZReg) (y : ZReg) : FirstBit.Statement (.zor x y) := ⟨bit_zero_append _ _, rfl⟩
theorem FirstBit.zxor (x : ZReg) (y : ZReg) : FirstBit.Statement (.zxor x y) := ⟨bit_zero_append _ _, rfl⟩
theorem FirstBit.zmul (x : ZReg) (y : ZReg) : FirstBit.Statement (.zmul x y) := ⟨bit_zero_append _ _, rfl⟩
theorem FirstBit.zdiv (x : ZReg) (y : ZReg) : FirstBit.Statement (.zdiv x y) := ⟨bit_zero_append _ _, rfl⟩
theorem FirstBit.zmin (x : ZReg) (y : ZReg) : FirstBit.Statement (.zmin x y) := ⟨bit_zero_append _ _, rfl⟩
theorem FirstBit.zmax (x : ZReg) (y : ZReg) : FirstBit.Statement (.zmax x y) := ⟨bit_zero_append _ _, rfl⟩
theorem FirstBit.zshl (x : ZReg) (y : ZReg) : FirstBit.Statement (.zshl x y) := ⟨bit_zero_append _ _, rfl⟩
theorem FirstBit.zshr (x : ZReg) (y : ZReg) : FirstBit.Statement (.zshr x y) := ⟨bit_zero_append _ _, rfl⟩
theorem FirstBit.zsar (x : ZReg) (y : ZReg) : FirstBit.Statement (.zsar x y) := ⟨bit_zero_append _ _, rfl⟩
theorem FirstBit.zmov (x : ZReg) (y : ZReg) : FirstBit.Statement (.zmov x y) := ⟨bit_zero_append _ _, rfl⟩
theorem FirstBit.zneg (x : ZReg) (y : ZReg) : FirstBit.Statement (.zneg x y) := ⟨bit_zero_append _ _, rfl⟩
theorem FirstBit.zaddi (x : ZReg) (imm : BitVec 6) : FirstBit.Statement (.zaddi x imm) := ⟨bit_zero_append _ _, rfl⟩
theorem FirstBit.zli (x : ZReg) (imm : BitVec 6) : FirstBit.Statement (.zli x imm) := ⟨bit_zero_append _ _, rfl⟩
theorem FirstBit.zld (x : ZReg) (y : ZReg) (off : BitVec 2) : FirstBit.Statement (.zld x y off) := ⟨bit_zero_append _ _, rfl⟩
theorem FirstBit.zst (x : ZReg) (y : ZReg) (off : BitVec 2) : FirstBit.Statement (.zst x y off) := ⟨bit_zero_append _ _, rfl⟩
theorem FirstBit.zldw (x : ZReg) (y : ZReg) (off : BitVec 2) : FirstBit.Statement (.zldw x y off) := ⟨bit_zero_append _ _, rfl⟩
theorem FirstBit.zstw (x : ZReg) (y : ZReg) (off : BitVec 2) : FirstBit.Statement (.zstw x y off) := ⟨bit_zero_append _ _, rfl⟩
theorem FirstBit.zldb (x : ZReg) (y : ZReg) (off : BitVec 2) : FirstBit.Statement (.zldb x y off) := ⟨bit_zero_append _ _, rfl⟩
theorem FirstBit.zstb (x : ZReg) (y : ZReg) (off : BitVec 2) : FirstBit.Statement (.zstb x y off) := ⟨bit_zero_append _ _, rfl⟩
theorem FirstBit.zj (imm : BitVec 10) : FirstBit.Statement (.zj imm) := ⟨bit_zero_append _ _, rfl⟩
theorem FirstBit.zret : FirstBit.Statement (.zret) := ⟨bit_zero_append _ _, rfl⟩
theorem FirstBit.retryDelay (core slot : Nat) : FirstBit.Statement (.retryDelay core slot) := rfl
theorem FirstBit.delivery (n : Nat) : FirstBit.Statement (.delivery n) := rfl
theorem FirstBit.retry (n : Nat) : FirstBit.Statement (.retry n) := rfl
theorem FirstBit.dispatch (core : Nat) : FirstBit.Statement (.dispatch core) := rfl
theorem FirstBit.preEmpted (core : Nat) : FirstBit.Statement (.preEmpted core) := rfl
theorem FirstBit.ageing (core slot : Nat) : FirstBit.Statement (.ageing core slot) := rfl
theorem FirstBit.waitEnd (core slot : Nat) : FirstBit.Statement (.waitEnd core slot) := rfl
theorem FirstBit.childPlacement (die n : Nat) : FirstBit.Statement (.childPlacement die n) := rfl
theorem FirstBit.loadReference (die q : Nat) : FirstBit.Statement (.loadReference die q) := rfl
theorem FirstBit.unload (die q : Nat) : FirstBit.Statement (.unload die q) := rfl
theorem FirstBit.objectFreed (n : Nat) : FirstBit.Statement (.objectFreed n) := rfl
theorem FirstBit.quiesced (n : Nat) : FirstBit.Statement (.quiesced n) := rfl
theorem FirstBit.evictComplete (n : Nat) : FirstBit.Statement (.evictComplete n) := rfl
theorem FirstBit.inFlightDrain (n : Nat) : FirstBit.Statement (.inFlightDrain n) := rfl
theorem FirstBit.tlbiDrained (n : Nat) : FirstBit.Statement (.tlbiDrained n) := rfl
theorem FirstBit.mxuInboxPost (n : Nat) : FirstBit.Statement (.mxuInboxPost n) := rfl
theorem FirstBit.mxuCmdMma (core : Nat) : FirstBit.Statement (.mxuCmdMma core) := rfl
theorem FirstBit.mxuCmdMzero (core : Nat) : FirstBit.Statement (.mxuCmdMzero core) := rfl
theorem FirstBit.mxuCmdMcvt (core : Nat) : FirstBit.Statement (.mxuCmdMcvt core) := rfl
theorem FirstBit.mxuCmdMresc (core : Nat) : FirstBit.Statement (.mxuCmdMresc core) := rfl
theorem FirstBit.mxuCmdMstat (core : Nat) : FirstBit.Statement (.mxuCmdMstat core) := rfl
theorem FirstBit.mxuCmdManch (core : Nat) : FirstBit.Statement (.mxuCmdManch core) := rfl
theorem FirstBit.mxuCmdMbput (core : Nat) : FirstBit.Statement (.mxuCmdMbput core) := rfl
theorem FirstBit.mxuReply (core : Nat) : FirstBit.Statement (.mxuReply core) := rfl
theorem FirstBit.vectorInboxPost (n : Nat) : FirstBit.Statement (.vectorInboxPost n) := rfl
theorem FirstBit.vecCmdVmap (core : Nat) : FirstBit.Statement (.vecCmdVmap core) := rfl
theorem FirstBit.vecCmdVfma (core : Nat) : FirstBit.Statement (.vecCmdVfma core) := rfl
theorem FirstBit.vecCmdVcmp (core : Nat) : FirstBit.Statement (.vecCmdVcmp core) := rfl
theorem FirstBit.vecCmdVlog (core : Nat) : FirstBit.Statement (.vecCmdVlog core) := rfl
theorem FirstBit.vecCmdVshf (core : Nat) : FirstBit.Statement (.vecCmdVshf core) := rfl
theorem FirstBit.vecCmdVred (core : Nat) : FirstBit.Statement (.vecCmdVred core) := rfl
theorem FirstBit.vecCmdVxf (core : Nat) : FirstBit.Statement (.vecCmdVxf core) := rfl
theorem FirstBit.vecCmdVcvt (core : Nat) : FirstBit.Statement (.vecCmdVcvt core) := rfl
theorem FirstBit.vecCmdVsel (core : Nat) : FirstBit.Statement (.vecCmdVsel core) := rfl
theorem FirstBit.vecCmdVperm (core : Nat) : FirstBit.Statement (.vecCmdVperm core) := rfl
theorem FirstBit.vectorReply (core : Nat) : FirstBit.Statement (.vectorReply core) := rfl
theorem FirstBit.doorbell (cluster q : Nat) : FirstBit.Statement (.doorbell cluster q) := rfl
theorem FirstBit.queuePoll (cluster q : Nat) : FirstBit.Statement (.queuePoll cluster q) := rfl
theorem FirstBit.ladleCopy (cluster chan : Nat) : FirstBit.Statement (.ladleCopy cluster chan) := rfl
theorem FirstBit.ladleFill (cluster chan : Nat) : FirstBit.Statement (.ladleFill cluster chan) := rfl
theorem FirstBit.ladleRelayout (cluster chan : Nat) : FirstBit.Statement (.ladleRelayout cluster chan) := rfl
theorem FirstBit.ladleNop (cluster chan : Nat) : FirstBit.Statement (.ladleNop cluster chan) := rfl
theorem FirstBit.ladleLaunch (cluster chan : Nat) : FirstBit.Statement (.ladleLaunch cluster chan) := rfl
theorem FirstBit.ladleReply (cluster chan : Nat) : FirstBit.Statement (.ladleReply cluster chan) := rfl
theorem FirstBit.runnerInboxPost (n : Nat) : FirstBit.Statement (.runnerInboxPost n) := rfl
theorem FirstBit.kcommBindCmd (die : Nat) : FirstBit.Statement (.kcommBindCmd die) := rfl
theorem FirstBit.kcommFreeCmd (die comm : Nat) : FirstBit.Statement (.kcommFreeCmd die comm) := rfl
theorem FirstBit.kplanCmd (die comm : Nat) : FirstBit.Statement (.kplanCmd die comm) := rfl
theorem FirstBit.play (die comm : Nat) : FirstBit.Statement (.play die comm) := rfl
theorem FirstBit.runnerSendOp (die : Nat) : FirstBit.Statement (.runnerSendOp die) := rfl
theorem FirstBit.runnerRecvOp (die : Nat) : FirstBit.Statement (.runnerRecvOp die) := rfl
theorem FirstBit.runnerMcastOp (die : Nat) : FirstBit.Statement (.runnerMcastOp die) := rfl
theorem FirstBit.runnerWaitOp (die : Nat) : FirstBit.Statement (.runnerWaitOp die) := rfl
theorem FirstBit.runnerAlignOp (die : Nat) : FirstBit.Statement (.runnerAlignOp die) := rfl
theorem FirstBit.chunkArrival (n : Nat) : FirstBit.Statement (.chunkArrival n) := rfl
theorem FirstBit.sendAccepted (n : Nat) : FirstBit.Statement (.sendAccepted n) := rfl
theorem FirstBit.creditReturn (n : Nat) : FirstBit.Statement (.creditReturn n) := rfl
theorem FirstBit.buddyTimeout (die comm op : Nat) : FirstBit.Statement (.buddyTimeout die comm op) := rfl
theorem FirstBit.runnerSilent (die comm op : Nat) : FirstBit.Statement (.runnerSilent die comm op) := rfl
theorem FirstBit.abortToken (n : Nat) : FirstBit.Statement (.abortToken n) := rfl
theorem FirstBit.request (n : Nat) : FirstBit.Statement (.request n) := rfl
theorem FirstBit.alertEnd (stack n : Nat) : FirstBit.Statement (.alertEnd stack n) := rfl
theorem FirstBit.reply (n : Nat) : FirstBit.Statement (.reply n) := rfl
theorem FirstBit.scratchpadAccess (n : Nat) : FirstBit.Statement (.scratchpadAccess n) := rfl
theorem FirstBit.scrub (stack word : Nat) : FirstBit.Statement (.scrub stack word) := rfl
theorem FirstBit.refresh (stack bank : Nat) : FirstBit.Statement (.refresh stack bank) := rfl
theorem FirstBit.laneRepair (stack chan : Nat) : FirstBit.Statement (.laneRepair stack chan) := rfl
theorem FirstBit.repairComplete (stack n : Nat) : FirstBit.Statement (.repairComplete stack n) := rfl
theorem FirstBit.repairTimeout (stack n : Nat) : FirstBit.Statement (.repairTimeout stack n) := rfl
theorem FirstBit.rebuildComplete (stack chan : Nat) : FirstBit.Statement (.rebuildComplete stack chan) := rfl
theorem FirstBit.reckonerQuery (n : Nat) : FirstBit.Statement (.reckonerQuery n) := rfl
theorem FirstBit.record (set bank : Nat) : FirstBit.Statement (.record set bank) := rfl
theorem FirstBit.qapndPutCmd (n : Nat) : FirstBit.Statement (.qapndPutCmd n) := rfl
theorem FirstBit.qapndAdvCmd (n : Nat) : FirstBit.Statement (.qapndAdvCmd n) := rfl
theorem FirstBit.qapndClrCmd (n : Nat) : FirstBit.Statement (.qapndClrCmd n) := rfl
theorem FirstBit.launchQueueRecord (die q : Nat) : FirstBit.Statement (.launchQueueRecord die q) := rfl
theorem FirstBit.coalescingWindow (page : Nat) : FirstBit.Statement (.coalescingWindow page) := rfl
theorem FirstBit.frameDrop (f : Frame) : FirstBit.Statement (.frameDrop f) := rfl
theorem FirstBit.frameLaunch (f : Frame) : FirstBit.Statement (.frameLaunch f) := rfl
theorem FirstBit.frameCopy (f : Frame) : FirstBit.Statement (.frameCopy f) := rfl
theorem FirstBit.frameDefault (f : Frame) : FirstBit.Statement (.frameDefault f) := rfl
theorem FirstBit.crcReplay (link : Nat) : FirstBit.Statement (.crcReplay link) := rfl
theorem FirstBit.linkDown (node : BitVec 16) (down : Bool) : FirstBit.Statement (.linkDown node down) := rfl
theorem FirstBit.nodeUnreachable (node : BitVec 16) : FirstBit.Statement (.nodeUnreachable node) := rfl
theorem FirstBit.moduleReset (b : Boot) : FirstBit.Statement (.moduleReset b) := rfl
theorem FirstBit.attestationReport (nonce : BitVec 384) : FirstBit.Statement (.attestationReport nonce) := rfl
theorem FirstBit.clockChange (mhz : BitVec 10) (therm pwr : Bool) : FirstBit.Statement (.clockChange mhz therm pwr) := rfl
theorem FirstBit.registerWrite (place : HartPlace) (size : BitVec 2) (value : BitVec 64) : FirstBit.Statement (.registerWrite place size value) := rfl
theorem FirstBit.unassignedEncoding (raw : BitVec 32) (cause : BitVec 10) : FirstBit.Statement (.unassignedEncoding raw cause) := rfl
theorem FirstBit.buddyCopyRequest (n : Nat) : FirstBit.Statement (.buddyCopyRequest n) := rfl
theorem FirstBit.badFcsFrame (port : Nat) : FirstBit.Statement (.badFcsFrame port) := rfl
theorem FirstBit.priorityFlowControlFrame (port : Nat) (enable : BitVec 8) (pause : Vector (BitVec 16) 8) : FirstBit.Statement (.priorityFlowControlFrame port enable pause) := rfl

end Sys2Proof.Laws
end

