-- ==== Sys2Proof/Laws/Traps.lean ====
section
/-! SUPPORT. Taking a trap (R210 to R216) and all that it calls keep memory canonical, so an instruction keeps it as soon as
its body does. -/

namespace Sys2Proof.Machine

@[simp] theorem State.refresh_mem (s : State) (k : Nat) : (s.refresh k).mem = s.mem := by
  unfold State.refresh; dsimp only; split <;> rfl

@[simp] theorem State.settle_mem (s : State) (c n : Nat) : (s.settle c n).mem = s.mem := by
  unfold State.settle; dsimp only; split <;> rfl

@[simp] theorem State.yieldCore_mem (s : State) (k : Nat) : (s.yieldCore k).mem = s.mem := rfl
@[simp] theorem State.logRemoval_mem (s : State) (n : Nat) : (s.logRemoval n).mem = s.mem := rfl
@[simp] theorem State.sendMsi_mem (s : State) (p : Nat) : (s.sendMsi p).mem = s.mem := rfl

@[simp] theorem State.msi_mem (s : State) (p : Nat) : (s.msi p).mem = s.mem := by
  unfold State.msi; dsimp only; split <;> rfl

@[simp] theorem State.discardMsgs_mem (s : State) (c : Nat) (l : List Msg) : (s.discardMsgs c l).mem = s.mem := rfl
@[simp] theorem State.clearGuards_mem (s : State) (c : Nat) (id : BitVec 32) : (s.clearGuards c id).mem = s.mem := rfl

@[simp] theorem State.freeEntries_mem (s : State) (c : Nat) (id : BitVec 32) : (s.freeEntries c id).mem = s.mem := by
  have h (l : List Nat) : (l.foldl State.unclaim s).mem = s.mem := State.foldl_mem _ _ _ fun _ _ => rfl
  unfold State.freeEntries
  dsimp only
  rw [State.modCore_mem]
  split
  · exact h _
  · exact h _

@[simp] theorem State.settleAway_mem (s : State) (c : Nat) : (s.settleAway c).mem = s.mem := by
  unfold State.settleAway; rfl

@[simp] theorem State.endActivation_mem (s : State) (k : Nat) : (s.endActivation k).mem = s.mem := State.refresh_mem ..
@[simp] theorem State.failActivation_mem (s : State) (k : Nat) : (s.failActivation k).mem = s.mem := State.refresh_mem ..

theorem State.eventRecord_wf {s : State} (page id done flt cause child : Nat) (h : Memory.wf s.mem = true) :
    Memory.wf (s.eventRecord page id done flt cause child).mem = true := by
  have two (j n k₁ k₂ v : Nat) (bs : List Byte) : Memory.wf (((s.open j n).store k₁ bs).storeLE k₂ 8 v).mem = true :=
    State.storeLE_wf _ _ _ (State.store_wf _ _ (by simpa using h))
  have tail (t : State) (f : SDie → SDie) (ht : Memory.wf t.mem = true) : Memory.wf ((t.modSDie f).msi page).mem = true := by
    rw [State.msi_mem, State.modSDie_mem]; exact ht
  unfold State.eventRecord
  exact tail _ _ (two _ _ _ _ _ _)

theorem State.finishLaunch_wf {s : State} (die : Nat) (l : Launch) (h : Memory.wf s.mem = true) :
    Memory.wf (s.finishLaunch die l).mem = true := by
  unfold State.finishLaunch
  dsimp only
  split
  · exact h
  · split
    · exact State.eventRecord_wf _ _ _ _ _ _ h
    · split
      · split
        · split <;> exact h
        · exact h
      · exact h

theorem State.childEnd_wf {s : State} (m : Membership) (f : Option (BitVec 10)) (h : Memory.wf s.mem = true) :
    Memory.wf (s.childEnd m f).mem = true := by
  unfold State.childEnd
  dsimp only
  repeat' split
  all_goals first | exact State.finishLaunch_wf _ _ h | exact h

theorem State.removeActor_wf {s : State} (k : Nat) (f : Option (BitVec 10)) (h : Memory.wf s.mem = true) :
    Memory.wf (s.removeActor k f).mem = true := by
  unfold State.removeActor
  dsimp only
  split
  · exact h
  · have h' := State.release_wf k h
    rw [State.settle_mem]
    split
    · exact State.childEnd_wf _ _ (by simpa using h')
    · simpa using h'

theorem State.removeEvicted_wf {s : State} (c : Nat) (e : Ctx) (f : Option (BitVec 10)) (h : Memory.wf s.mem = true) :
    Memory.wf (s.removeEvicted c e f).mem = true := by
  unfold State.removeEvicted
  dsimp only
  split
  · rw [State.settleAway_mem]
    split
    · exact State.childEnd_wf _ _ (by simpa using h)
    · simpa using h
  · exact h

theorem State.faultNotice_wf {s : State} (f : FaultInfo) (level action : Nat) (frozen : Bool) (h : Memory.wf s.mem = true) :
    Memory.wf (s.faultNotice f level action frozen).mem = true := by
  unfold State.faultNotice
  exact State.drain_wf _ _ h

theorem State.removeSelf_wf {s : State} (f : FaultInfo) (h : Memory.wf s.mem = true) :
    Memory.wf (s.removeSelf f).mem = true := by
  unfold State.removeSelf
  split
  · exact State.removeActor_wf _ _ h
  · split
    · exact State.removeEvicted_wf _ _ _ h
    · exact h

theorem State.removeVictims_wf {s : State} (f : FaultInfo) (level : Nat) (h : Memory.wf s.mem = true) :
    Memory.wf (s.removeVictims f level).mem = true := by
  unfold State.removeVictims
  split
  · exact State.removeSelf_wf f h
  · refine State.foldl_keeps (fun t => Memory.wf t.mem = true) _ _ ?_ fun t e ht => ?_
    · refine State.foldl_keeps (fun t => Memory.wf t.mem = true) _ _ h fun t e ht => ?_
      split
      · exact State.removeActor_wf _ _ ht
      · exact ht
    · refine State.foldl_keeps (fun t => Memory.wf t.mem = true) _ _ ht fun t x ht => ?_
      repeat' split
      all_goals first | exact State.removeEvicted_wf _ _ _ ht | exact ht

theorem State.cancelLaunches_wf {s : State} (colour : BitVec 6) (asid : BitVec 16) (h : Memory.wf s.mem = true) :
    Memory.wf (s.cancelLaunches colour asid).mem = true := by
  unfold State.cancelLaunches
  refine State.foldl_keeps (fun t => Memory.wf t.mem = true) _ _ h fun t d ht => ?_
  refine State.foldl_keeps (fun t => Memory.wf t.mem = true) _ _ ht fun t l ht => ?_
  split
  · exact State.foldl_keeps (fun t => Memory.wf t.mem = true) _ _ ht fun t c ht => State.childEnd_wf _ _ ht
  · exact ht

theorem State.recordLevel_wf {s : State} (f : FaultInfo) (level action retries : Nat) (h : Memory.wf s.mem = true) :
    Memory.wf (s.recordLevel f level action retries).mem = true := by
  unfold State.recordLevel
  dsimp only
  split
  · exact h
  · exact State.atCtx_wf _ _ _ _ _ h

@[simp] theorem State.retryLater_mem (s : State) (f : FaultInfo) (level : Nat) : (s.retryLater f level).mem = s.mem := rfl

theorem State.contain_wf {s : State} (f : FaultInfo) (levels : List Nat) (h : Memory.wf s.mem = true) :
    Memory.wf (s.contain f levels).mem = true := by
  induction levels generalizing s with
  | nil => exact h
  | cons level up ih =>
    have record (a r : Nat) (p : Prop) [Decidable p] :
        Memory.wf (if p then s.recordLevel f level a r else s).mem = true := by
      split
      · exact State.recordLevel_wf _ _ _ _ h
      · exact h
    have remove {t : State} (p : Prop) [Decidable p] (ht : Memory.wf t.mem = true) :
        Memory.wf (if p then t.removeVictims f level else t).mem = true := by
      split
      · exact State.removeVictims_wf _ _ ht
      · exact ht
    have cancel {t : State} (p : Prop) [Decidable p] (ht : Memory.wf t.mem = true) :
        Memory.wf (if p then t.cancelLaunches f.colour f.asid else t).mem = true := by
      split
      · exact State.cancelLaunches_wf _ _ ht
      · exact ht
    have ends {t : State} (p : Prop) [Decidable p] (ht : Memory.wf t.mem = true) :
        Memory.wf (if p then t.failActivation f.key else t).mem = true := by
      split
      · simpa using ht
      · exact ht
    unfold State.contain
    extract_lets code live past code' s₁ s₂ s₃ s₄
    split
    · split
      · refine State.faultNotice_wf _ _ _ _ ?_
        rw [State.retryLater_mem]
        exact State.recordLevel_wf _ _ _ _ h
      · exact ih h
    · split
      · exact ih (cancel _ (remove _ (record _ _ _)))
      · split
        · exact ends _ (cancel _ (remove _ (record _ _ _)))
        · exact State.faultNotice_wf _ _ _ _ (ends _ (cancel _ (remove _ (record _ _ _))))

theorem State.trapFate_wf {s : State} (k : Nat) (cause : BitVec 10) (addr : Word) (h : Memory.wf s.mem = true) :
    Memory.wf (s.trapFate k cause addr).mem = true := by
  unfold State.trapFate
  dsimp only
  split
  · exact State.contain_wf _ _ h
  · split
    · exact State.faultNotice_wf _ _ _ _ (State.recordLevel_wf _ _ _ _ h)
    · split
      · refine State.faultNotice_wf _ _ _ _ ?_
        rw [State.failActivation_mem]
        exact State.recordLevel_wf _ _ _ _ h
      · exact State.contain_wf _ _ h

theorem State.takeTrap_wf {s : State} (k : Nat) (cause : BitVec 10) (addr : Word) (emu : Option EmuKey)
    (h : Memory.wf s.mem = true) : Memory.wf (s.takeTrap k cause addr emu).mem = true := by
  unfold State.takeTrap
  extract_lets sl bound charge cause' s'
  split
  · exact State.trapFate_wf _ _ _ h
  · clear_value bound
    cases bound with
    | some b => exact h
    | none => exact State.trapFate_wf _ _ _ h

/-- What an instruction's outcome leaves is canonical if what its body leaves is. -/
theorem Act.finish_wf {a : Act} (k len cost : Nat) {s₀ : State} (h₀ : Memory.wf s₀.mem = true)
    (h : match a with
      | .next s | .jump s _ | .ends s | .wait s _ => Memory.wf s.mem = true
      | _ => True) : Memory.wf (a.finish k len cost s₀).mem = true := by
  refine State.orWait_wf k h₀ ?_
  cases a with
  | next s => exact h
  | jump s pc => exact h
  | ends s => exact h
  | wait s w => exact h
  | trap c a => exact State.takeTrap_wf _ _ _ _ (by simpa using h₀)
  | undef f => exact State.takeTrap_wf _ _ _ _ h₀

/-- An instruction keeps memory canonical if its body does. -/
theorem State.run_wf {s t : State} {need : Need} {len cost : Nat} {g : PredNo} {body : Nat → Act}
    (h : Memory.wf s.mem = true) (hr : s.run need len cost g body = .next t)
    (hb : ∀ k, Runs s k need cost g → match body k with
      | .next u | .jump u _ | .ends u | .wait u _ => Memory.wf u.mem = true
      | _ => True) : Memory.wf t.mem = true := by
  rcases State.run_cases s need len cost g body with ⟨-, h1⟩ | ⟨k, -, ⟨f, -, -, h1⟩ | h1 | h1 | ⟨-, h1⟩ | ⟨hk, h1⟩⟩
  · simp [h1] at hr
  all_goals rw [h1] at hr; injection hr with hr; subst hr
  · exact State.orWait_wf k h (State.takeTrap_wf _ _ _ _ h)
  · exact State.orWait_wf k h (State.takeTrap_wf _ _ _ _ h)
  · exact State.orWait_wf k h (State.takeTrap_wf _ _ _ _ h)
  · exact Act.finish_wf _ _ _ h h
  · exact Act.finish_wf _ _ _ h (hb k hk)

end Sys2Proof.Machine
end

