-- ==== Sys2Proof/Tests/Slice0.lean ====
section
/-! SUPPORT. Tests: ill-formed terms, a word of every instruction, single steps, and witnesses of the statements'
hypotheses. The words come from the masks and fields of spec/opcode_table.json. -/

namespace Sys2Proof.Tests
-- One proof after another: each kernel evaluation at once would take a thread with a large stack.
set_option Elab.async false
open Sys2Proof Sys2Proof.Machine Sys2Proof.Claims

/-! ### Well-formedness -/

/-- Each check of `Instr.wf` refuses a term. -/
theorem test_wf_refuses :
    (Instr.fenceAcq 7).wf = false ∧ (Instr.fenceRel 7).wf = false ∧ (Instr.fenceFull 7).wf = false ∧
    (Instr.balloc 0 (.s 1) (.s 2)).wf = false ∧ (Instr.balloc 6 (.s 1) (.s 2)).wf = false ∧
    (Instr.balloc 7 (.s 1) (.s 2)).wf = false ∧
    (Instr.csrRd (.s 1) 0x008).wf = false ∧ (Instr.csrSwp (.s 1) 0x015).wf = false ∧ (Instr.csrWr (.s 1) 0x7FF).wf = false ∧
    (Instr.csrSet (.s 1) 0x805).wf = false ∧ (Instr.csrClr (.s 1) 0xFFF).wf = false := by decide

/-- R151, R200, R201: a pair starts at s1 to s62 or q0 to q6. -/
theorem test_wf_pairs :
    (Instr.amoA96 (.s 1) (.s 2) (.s 0)).wf = false ∧ (Instr.amoA96 (.s 1) (.s 2) (.s 63)).wf = false ∧
    (Instr.wlapp (.s 1) (.s 2) (.q 7)).wf = false ∧ (Instr.wltakeCore (.s 1) (.a 0)).wf = false ∧
    (Instr.wltakeQuad (.s 1) .last).wf = false ∧ (Instr.wltakeClus (.s 1) (.i 0)).wf = false := by decide

theorem test_wf_accepts :
    (Instr.fenceAcq 6).wf = true ∧ (Instr.balloc 5 (.s 1) (.s 2)).wf = true ∧ (Instr.csrRd (.s 1) 0xC02).wf = true ∧
    (Instr.amoA96 (.s 1) (.s 2) (.s 62)).wf = true ∧ (Instr.wltakeCore (.s 1) (.q 6)).wf = true := by decide

/-! ### Witnesses: what the statements assume can be met -/

/-- What `Ready` asks, as a check. -/
def readyAt (s : State) (k : Nat) (feats : List Nat) (g : PredNo) (cost : Nat) : Bool :=
  decide (s.cur = some k) && feats.all s.hasFeat && (s.slot k).pred g &&
  (decide ((s.slot k).budget = 0) || decide ((s.slot k).used.toNat + cost ≤ (s.slot k).budget.toNat)) && decide (s.stuck = none)

theorem ready_of {s : State} {k : Nat} {feats : List Nat} {g : PredNo} {cost : Nat}
    (h : readyAt s k feats g cost = true) : Ready s k feats g cost := by
  simp only [readyAt, Bool.and_eq_true, Bool.or_eq_true, decide_eq_true_eq, List.all_eq_true] at h
  exact ⟨h.1.1.1.1, h.1.1.1.2, h.1.1.2, h.1.2, h.2⟩

/-- What every listed value and the default have, a read of a map has. -/
theorem get_all {α : Type} {d : α} {m : AMap α} {p : α → Bool} (h : (p d && m.all fun e => p e.2) = true) (k : Nat) :
    p (AMap.get d m k) = true := by
  induction m with
  | nil => simpa using h
  | cons e m ih =>
    simp only [List.all_cons, Bool.and_eq_true] at h ih
    by_cases hk : e.1 = k
    · simpa [AMap.get, hk] using h.2.1
    · simpa [AMap.get, hk] using ih ⟨h.1, h.2.2⟩

/-- What `Lone` asks, as a check of the slots that are listed. -/
def loneAt (s : State) : Bool :=
  let free (sl : Slot) := decide (sl.phase ≠ .blocked (.access s.nextId))
  decide (s.net.reqs = [] ∧ s.net.answers = [] ∧ s.module.down = []) && (free .reset && s.slots.all fun e => free e.2)

theorem lone_of {s : State} (h : loneAt s = true) : Lone s := by
  simp only [loneAt, Bool.and_eq_true, decide_eq_true_eq] at h
  exact ⟨h.1.1, h.1.2.1, h.1.2.2, fun j => of_decide_eq_true (get_all (p := fun sl : Slot =>
    decide (sl.phase ≠ .blocked (.access s.nextId))) (by rw [Bool.and_eq_true]; exact ⟨decide_eq_true h.2.1, h.2.2⟩) j)⟩

/-- What `OwnAccess` asks, as a check of what the access checks give. -/
def ownAt (s : State) (k : Nat) (kind : AccKind) (r : Reach) (va : Word) (n align : Nat) : Bool :=
  match s.check (keyCore k) (s.slot k).asid (s.slot k).cls kind r va n align with
  | .ok x => (decide (windowCore (paOf x.key) = some (keyCore k)) && decide (windowOff (paOf x.key) < 0xF0000)) &&
      (decide (x.tt = 1) || decide (x.tt = 2) || decide (x.tt = 3)) && !(walked s k x).poisoned x.key n &&
      decide ((walked s k x).stuck = none) && loneAt (walked s k x)
  | .error _ => false

/-- An access of slot 0 to its core's own storage, from a state in which nothing else is on its way. -/
def Owns (s : State) (kind : AccKind) (r : Reach) (va : Slot → Word) (n align : Nat) : Prop :=
  ∃ x, OwnAccess s 0 kind r (va (s.slot 0)) n align x ∧ Lone (walked s 0 x)

theorem owns_of {s : State} {kind : AccKind} {r : Reach} {va : Slot → Word} {n align : Nat}
    (h : ownAt s 0 kind r (va (s.slot 0)) n align = true) : Owns s kind r va n align := by
  unfold ownAt at h
  split at h
  · next x hx =>
    simp only [Bool.and_eq_true, Bool.or_eq_true, decide_eq_true_eq, Bool.not_eq_true', or_assoc] at h
    exact ⟨x, ⟨hx, h.1.1.1.1, h.1.1.1.2, .inr h.1.1.2, h.1.2⟩, lone_of h.2⟩
  · simp at h

/-- A computation that succeeds with a value of a property. -/
def okAnd {ε α : Type} (e : Except ε α) (p : α → Bool) : Bool :=
  match e with
  | .ok a => p a
  | .error _ => false

theorem ok_of {ε α : Type} {e : Except ε α} {p : α → Bool} (h : okAnd e p = true) : ∃ a, e = .ok a ∧ p a = true := by
  cases e with
  | ok a => exact ⟨a, rfl, h⟩
  | error _ => simp [okAnd] at h

/-- A running activation of class 2 on core 0, slot 0, with pages at 0x20000 (its scratchpad), 0x30000 (core 1's),
0x40000 (core 1's mailboxes), 0x50000 (its B-store), 0x60000 (its tiles), 0x70000 (registers), and at 0x200000 a page of compute-capable
memory. -/
def world : State :=
  let s := State.reset.loaded []
  let s := [(2, 0xF000000037), (3, 0xF000100037), (4, 0xF0001D0097), (5, 0xF000040057), (6, 0xF0000C0077), (7, 0xFF000000A7)].foldl
    (fun s e => s.storeLE (loadBase + 0x92000 + 8 * e.1) 8 e.2) s
  let s := s.storeLE (loadBase + 0x91008) 8 (0x6FFC000000 + 0xC17)
  s.modStack 0 fun t => { t with ccn := 1 }

/-- The running slot with a change. -/
def worldWith (f : Slot → Slot) : State := world.modSlot 0 f

/-- A slot whose register s1 holds a value. -/
def s1 (v : Word) (sl : Slot) : Slot := { sl with s := sl.s.set 1 v }

/-- An instruction answers a next state of a property. -/
noncomputable def gives (i : Instr) (s : State) (p : State → Bool) : Bool :=
  match exec i s with
  | .next t => p t
  | _ => false

/-- The state that an instruction answers. -/
noncomputable def after (i : Instr) (s : State) : State :=
  match exec i s with
  | .next t => t
  | _ => s

/-- An instruction that waits for its bank completes, with the bank's step and its answer, in a state of a property. -/
noncomputable def serves (i : Instr) (s : State) (p : State → Bool) : Bool :=
  gives (.reply 0) (after (.scratchpadAccess 0) (after i s)) p

/-- An instruction run in the running slot with a change gives a slot of a property. -/
noncomputable def turns (i : Instr) (f : Slot → Slot) (p : Slot → Bool) : Bool :=
  gives i (worldWith f) fun t => p (t.slot 0)

/-- A slot whose registers s1 and s2 hold two values. -/
def s12 (v w : Word) (sl : Slot) : Slot := { sl with s := (sl.s.set 1 v).set 2 w }

/-- s3 and L hold a value and the PC has passed the instruction. -/
def holds (v : Word) (len : Nat) (sl : Slot) : Bool :=
  decide (sl.s[3] = v) && decide (sl.l = v) && decide (sl.pc = BitVec.ofNat 52 (0x10000 + len))

theorem world_ready : readyAt world 0 [0, 1, 2, 3, 8, 9, 10, 11, 12, 32, 33, 34, 40, 48, 49, 50, 51] 0 20 = true := by
  decide +kernel

/-- O2 to O9, O13: every feature is there, and the largest charge fits. -/
theorem wit_ready (feats : List Nat) (cost : Nat) (h : feats ⊆ [0, 1, 2, 3, 8, 9, 10, 11, 12, 32, 33, 34, 40, 48, 49, 50, 51])
    (hc : cost ≤ 20) : Ready world 0 feats 0 cost := by
  have := ready_of world_ready
  exact ⟨this.runs, fun f hf => this.feats f (h hf), this.guard, this.budget.imp id fun hb => Nat.le_trans (by omega) hb, this.free⟩

theorem wit_ArithmeticWritesItsResult : Ready world 0 [0] 0 1 ∧ Ready world 0 [0] 0 3 :=
  ⟨wit_ready _ _ (by simp) (by omega), wit_ready _ _ (by simp) (by omega)⟩

/-! ### A word of every row of the opcode table -/

/-- The decoder reads an instruction from a word, and the encoder gives the word back. -/
noncomputable def reads (e : Nat × Nat × Instr) : Bool :=
  decide (decodeTableWord e.1 e.2.1 = some e.2.2) && decide (bytesLE e.2.2.raw.toNat e.2.2.len = bytesLE e.2.1 e.2.2.len)

/-- `add` to `cmpLe`. -/
theorem test_decode_1 : [(32, 0xBFA44401, .add (.q 4) (.a 0) .last 5),
  (32, 0xDAB4003, .sub (.q 0) (.c 2) (.s 54) 0),
  (32, 0xDCFFE05, .mul .last (.s 31) (.s 55) 0),
  (32, 0xDFA47E07, .mulh .last (.a 0) .last 6),
  (32, 0xB3314109, .div (.q 1) (.c 14) (.a 4) 5),
  (32, 0xF63F090B, .rem (.s 9) .last (.c 4) 7),
  (32, 0x176CA50D, .and (.s 37) (.c 5) (.c 9) 0),
  (32, 0x121B040F, .or (.s 4) (.s 54) (.a 0) 0),
  (32, 0xF3473911, .xor (.s 57) (.s 14) (.a 5) 7),
  (32, 0x8E5C613, .shl (.q 6) (.a 3) (.s 35) 0),
  (32, 0x337F2615, .shr (.s 38) .last (.a 5) 1),
  (32, 0xCE5CC617, .sar (.q 6) (.s 57) (.s 57) 6),
  (32, 0xF33F4519, .sel (.q 5) .last (.a 4) 7),
  (32, 0xE2BF441B, .min (.q 4) .last (.s 10) 7),
  (32, 0x9FA0FE1D, .max .last (.q 1) .last 4),
  (32, 0xDF9F041F, .cmpEq 4 (.s 62) .last 6),
  (32, 0xF610091F, .cmpNe 1 (.s 32) (.c 4) 7),
  (32, 0xA914921F, .cmpLt 2 (.s 41) (.s 36) 5),
  (32, 0xBF919B1F, .cmpGe 3 (.s 35) .last 5),
  (32, 0xF119A61F, .cmpLe 6 (.s 51) (.q 4) 7)].all reads = true := by decide +kernel

/-- `cmpGt` to `shiShr`. -/
theorem test_decode_2 : [(32, 0x3FA2AD1F, .cmpGt 5 (.q 5) .last 1),
  (32, 0x1FA5361F, .cmpLtn 6 (.a 2) .last 0),
  (32, 0xA7253A1F, .cmpGen 2 (.a 2) (.s 28) 5),
  (32, 0x92E5C31F, .cmpLen 3 (.a 3) (.a 3) 4),
  (32, 0x532F4E1F, .cmpGtn 6 (.c 10) (.a 4) 2),
  (32, 0x2A2571F, .cmpAny 7 (.q 4) (.s 10) 0),
  (32, 0xB27F5B1F, .cmpNone 3 .last (.a 1) 5),
  (32, 0xF4D3601F, .cmpAll 0 (.s 38) (.i 3) 7),
  (32, 0x173F6B1F, .cmpNall 3 .last (.c 8) 0),
  (32, 0xBFABF61F, .cmpBit 6 (.c 3) .last 5),
  (32, 0xB061F91F, .cmpNbit 1 (.q 3) (.q 1) 5),
  (32, 0x693F1D21, .addi (.s 29) .last 420),
  (32, 0x905A623, .logiAnd (.s 38) (.s 11) 36),
  (32, 0x3CCB7E23, .logiOr .last (.s 22) 115),
  (32, 0x5BA63423, .logiXor (.s 52) (.a 4) 110),
  (32, 0x6CA4FE23, .logiAndn .last (.a 1) (.s 50)),
  (32, 0x8F64FE23, .logiOrn .last (.a 1) (.s 61)),
  (32, 0xA8650423, .logiXnor (.s 4) (.a 2) (.s 33)),
  (32, 0xC04A825, .shiShl (.s 40) (.s 9) 48),
  (32, 0x242DC425, .shiShr (.q 4) (.c 7) 16)].all reads = true := by decide +kernel

/-- `shiSar` to `bcntCtz`. -/
theorem test_decode_3 : [(32, 0x457F4225, .shiSar (.q 2) .last 21),
  (32, 0x6CFF7E25, .shiRol .last .last 51),
  (32, 0x8CD9FE25, .shiRor .last (.s 51) 51),
  (32, 0xEB991A27, .lim (.s 26) 120626),
  (32, 0xEA6C129, .bextU (.q 1) (.a 5) (.s 58)),
  (32, 0x27648929, .bextS (.s 9) (.a 1) (.s 29)),
  (32, 0x5F834229, .bextI8 (.q 2) (.s 6) .last),
  (32, 0x70871A29, .bextN8 (.s 26) (.s 14) (.q 2)),
  (32, 0x905F2729, .bextI16 (.s 39) (.s 62) (.q 1)),
  (32, 0xB1DD9A29, .bextN16 (.s 26) (.s 59) (.q 7)),
  (32, 0xD2079829, .bextI32 (.s 24) (.s 15) (.a 0)),
  (32, 0xF1204629, .bextN32 (.q 6) (.q 0) (.q 4)),
  (32, 0x1FA5C42B, .binsIns (.q 4) (.a 3) .last),
  (32, 0x3F88462B, .binsB8 (.q 6) (.s 16) .last),
  (32, 0x50D4462B, .binsB16 (.q 6) (.s 40) (.q 3)),
  (32, 0x72E3BB2B, .binsB32 (.s 59) (.q 7) (.a 3)),
  (32, 0x63641C2D, .fsh (.s 28) (.a 0) (.s 13) 3),
  (32, 0x4C22F, .bcntPop (.q 2) (.s 9)),
  (32, 0x20288B2F, .bcntClz (.s 11) (.i 1)),
  (32, 0x402B7E2F, .bcntCtz .last (.c 2))].all reads = true := by decide +kernel

/-- `bcntClo` to `plogAnd`. -/
theorem test_decode_4 : [(32, 0x602A242F, .bcntClo (.s 36) (.c 0)),
  (32, 0x803F022F, .bcntCto (.s 2) .last),
  (32, 0xA011472F, .bcntRev (.q 7) (.s 34)),
  (32, 0xC03F252F, .bcntBsw (.s 37) .last),
  (32, 0xD2ECB431, .brT 4 863947),
  (32, 0x7A28E931, .brF 1 500366),
  (32, 0xF127C633, .j 15804358),
  (32, 0xF7183F35, .jl 16193599),
  (32, 0x3A704537, .jr (.q 5) (.c 12) 233),
  (32, 0x28039, .lset 0 (.s 5)),
  (32, 0x4075013B, .lend 1 264016),
  (32, 0x40C3833D, .plogClr 3 7 3 2),
  (32, 0xA0028A3D, .plogNor 2 5 0 5),
  (32, 0x6182953D, .plogAndna 5 5 6 3),
  (32, 0xA1C19F3D, .plogNota 7 3 7 5),
  (32, 0x180A03D, .plogAndnb 0 1 6 0),
  (32, 0x2A3D, .plogNotb 2 0 0 0),
  (32, 0xC1B23D, .plogXor 2 3 3 0),
  (32, 0x8041BC3D, .plogNand 4 3 1 4),
  (32, 0xA080C73D, .plogAnd 7 1 2 5)].all reads = true := by decide +kernel

/-- `plogXnor` to `sth`. -/
theorem test_decode_5 : [(32, 0x40C24B3D, .plogXnor 3 4 3 2),
  (32, 0x1C2503D, .plogMovb 0 4 7 0),
  (32, 0x20425D3D, .plogOrna 5 4 1 1),
  (32, 0x8043E13D, .plogMova 1 7 1 4),
  (32, 0x21426B3D, .plogOrnb 3 4 5 1),
  (32, 0x21C0743D, .plogOr 4 0 7 1),
  (32, 0x20417E3D, .plogSet 6 2 1 1),
  (32, 0x188A803F, .cset (.s 21) 98),
  (32, 0x30FF1841, .adr 1 (.s 24) .last (.q 3)),
  (32, 0x40000043, .hret 2),
  (32, 0xA8FDF445, .hint 116 86523),
  (32, 0x7E47, .getcPc .last),
  (32, 0x8003147, .getcHdr0 (.s 49)),
  (32, 0x10000C47, .getcHdr1 (.s 12)),
  (32, 0x18000447, .getcPrd (.s 4)),
  (32, 0xE27F7E49, .ld .last .last 1 2 7),
  (32, 0xB066FE4B, .ldn .last (.a 5) 1 16 5),
  (32, 0x8463CB4D, .st (.a 3) (.q 7) 1 4 4),
  (32, 0xF1308E4F, .ldh 14 (.c 13) 17 7),
  (32, 0x4F2A0551, .sth 5 (.c 0) 15 2)].all reads = true := by decide +kernel

/-- `amoAdd` to `pwld`. -/
theorem test_decode_6 : [(32, 0xA464453, .amoAdd (.q 4) (.s 12) (.s 41)),
  (32, 0x2B92C353, .amoAnd (.q 3) (.s 37) (.s 46)),
  (32, 0x536DC753, .amoOr (.q 7) (.c 7) (.a 5)),
  (32, 0x68638153, .amoXor (.s 1) (.q 7) (.s 33)),
  (32, 0x921A4353, .amoMin (.q 3) (.s 52) (.a 0)),
  (32, 0xA9FF4153, .amoMax (.q 1) .last (.s 39)),
  (32, 0xDFBF4553, .amoSwp (.q 5) .last .last),
  (32, 0xEF2CB153, .amoA96 (.s 49) (.c 5) (.s 60)),
  (32, 0x12FF2155, .casW (.s 33) .last (.a 3)),
  (32, 0x3521C455, .casD (.q 4) (.q 3) (.c 0)),
  (32, 0x1664C157, .qclaim (.q 1) (.a 1) (.c 5)),
  (32, 0xC00059, .fenceAcq 3),
  (32, 0x20400059, .fenceRel 1),
  (32, 0x41400059, .fenceFull 5),
  (32, 0x364FE5B, .waddrEq .last (.a 1) (.s 13)),
  (32, 0x23E2FE5B, .waddrNe .last (.q 5) (.s 15)),
  (32, 0x49D49A5B, .waddrGes (.s 26) (.s 41) (.s 39)),
  (32, 0x7061FE5B, .waddrAny .last (.q 3) (.q 1)),
  (32, 0x124C3C5D, .wbead 60 48 36 4),
  (32, 0x4F60415F, .pwld (.q 1) (.q 0) 1 1 7 2)].all reads = true := by decide +kernel

/-- `ldx` to `barr`. -/
theorem test_decode_7 : [(32, 0xC5309C61, .ldx (.s 28) (.c 13) 0 1 1 6),
  (32, 0x249E63, .stx (.s 30) (.a 1) 0 0 0),
  (32, 0xC9294B65, .send (.a 3) (.i 2) 36 3),
  (32, 0x1BF5267, .sendr (.i 2) .last 6 0),
  (32, 0x148EC469, .mbcfgSet (.q 4) (.s 29) (.i 2)),
  (32, 0x36804369, .mbcfgOff (.q 3) (.c 6)),
  (32, 0x4EA34669, .mbcfgKey (.q 6) (.q 6) (.s 58)),
  (32, 0x76804469, .mbcfgStat (.q 4) (.c 6)),
  (32, 0x80004469, .mbcfgRcan (.q 4)),
  (32, 0x26426B, .actorNew (.q 2) (.a 4)),
  (32, 0x2000006B, .actorExit),
  (32, 0x4020466B, .actorKill (.q 6) (.q 0)),
  (32, 0x11237E6D, .launch .last (.q 6) (.q 4)),
  (32, 0x6446F, .joinStat (.q 4) (.s 12)),
  (32, 0x2025086F, .joinKill (.s 8) (.a 2)),
  (32, 0x7FF2471, .wlapp (.s 36) .last (.s 31)),
  (32, 0xEC07E73, .wltakeCore .last (.s 59)),
  (32, 0x30401E73, .wltakeQuad (.s 30) (.q 1)),
  (32, 0x51402D73, .wltakeClus (.s 45) (.q 5)),
  (32, 0x2DFE75, .barr .last (.c 7))].all reads = true := by decide +kernel

/-- `bwait` to `mresc`. -/
theorem test_decode_8 : [(32, 0x1FA14477, .bwait (.q 4) (.q 2) .last),
  (32, 0x2021C379, .balloc 1 (.q 3) (.q 3)),
  (32, 0x22FE7B, .bfree .last (.q 5)),
  (32, 0x162BC67D, .quiesArm (.q 6) (.c 3) (.c 4)),
  (32, 0x2E611F7D, .quiesDisarm (.s 31) (.q 2) (.s 57)),
  (32, 0x4D54407D, .quiesTest (.q 0) (.s 40) (.s 53)),
  (32, 0x1722C37F, .rgsetRd (.q 3) (.q 5) (.c 8)),
  (32, 0x21BF7E7F, .rgsetWr .last .last (.s 6)),
  (32, 0x4026FE7F, .rgsetClr .last (.a 5)),
  (32, 0x20299B81, .mma 27 12 10 1),
  (32, 0x80001983, .mzeroZero 25 4),
  (32, 0xE0823783, .mzeroLoad 23 17 7),
  (32, 0x1002183, .mzeroAdd 1 1 0),
  (32, 0x41810283, .mzeroStat 2 8 2),
  (32, 0xE4012D85, .mcvtRne 13 9 1 7),
  (32, 0xE081DF85, .mcvtRtz 31 14 0 7),
  (32, 0xA102BA85, .mcvtRdn 26 21 0 5),
  (32, 0x25811085, .mcvtRup 16 8 1 1),
  (32, 0xC600AD85, .mcvtSrk 13 5 1 6),
  (32, 0x40253887, .mresc 24 9 9 2)].all reads = true := by decide +kernel

/-- `mstatRd` to `vcmpLe`. -/
theorem test_decode_9 : [(32, 0xE000A789, .mstatRd 7 5 7),
  (32, 0x6082BF89, .mstatRdclr 31 21 3),
  (32, 0x4000078B, .manch 7 2),
  (32, 0x6002828D, .mbput 2 20 3),
  (32, 0xA000018F, .mpost 1 5),
  (32, 0x20734391, .vmapAdd 3 26 28 0 1),
  (32, 0x809BDB91, .vmapSub 27 30 6 0 4),
  (32, 0xED67E491, .vmapMul 4 31 25 3 7),
  (32, 0x11C94B91, .vmapMin 11 10 18 4 0),
  (32, 0xDA7C7C91, .vmapMax 28 3 31 6 6),
  (32, 0xF2824A91, .vmapAbs 10 18 4 7),
  (32, 0x37008991, .vmapNeg 9 4 5 1),
  (32, 0x5409A193, .vfmaFma 1 13 2 5 2),
  (32, 0x34DA0193, .vfmaFms 1 16 22 5 1),
  (32, 0x4D1B9593, .vfmaFnma 21 28 6 3 2),
  (32, 0x39A34C93, .vfmaFnms 12 26 8 6 1),
  (32, 0xA06DD095, .vcmpEq 16 14 27 5),
  (32, 0xA0961495, .vcmpNe 20 16 5 5),
  (32, 0x410D3B95, .vcmpLt 27 9 3 2),
  (32, 0x41E1E495, .vcmpLe 4 15 24 2)].all reads = true := by decide +kernel

/-- `vcmpGt` to `vredImin`. -/
theorem test_decode_10 : [(32, 0x825FFC95, .vcmpGt 28 31 23 4),
  (32, 0x82A55895, .vcmpGe 24 10 9 4),
  (32, 0x836BAC95, .vcmpUn 12 29 26 4),
  (32, 0x438FCC95, .vcmpOrd 12 30 3 2),
  (32, 0x400CA997, .vlogAnd 9 5 3 2),
  (32, 0x9F4A97, .vlogOr 10 26 7 0),
  (32, 0xA10FEB97, .vlogXor 11 31 3 5),
  (32, 0x18D1E97, .vlogAndn 30 8 3 0),
  (32, 0xE2002A97, .vlogNot 10 1 7),
  (32, 0x82822397, .vlogMnot 3 17 4),
  (32, 0x605D8F99, .vshfShl 15 12 23 3),
  (32, 0x80A7FE99, .vshfShr 30 31 9 4),
  (32, 0xC1387199, .vshfSar 17 3 14 6),
  (32, 0x81BA0399, .vshfRshr 3 16 14 4),
  (32, 0xEC03439B, .vredSum 3 26 3 7),
  (32, 0x1882F99B, .vredMax 25 23 6 0),
  (32, 0xAD03E39B, .vredMin 3 31 3 5),
  (32, 0x1180099B, .vredAmax 9 0 4 0),
  (32, 0xA2007B9B, .vredImax 27 3 5),
  (32, 0xA280A59B, .vredImin 5 5 5)].all reads = true := by decide +kernel

/-- `vxfExp2` to `lpostCp`. -/
theorem test_decode_11 : [(32, 0xE402019D, .vxfExp2 1 16 1 7),
  (32, 0x64824C9D, .vxfLog2 12 18 1 3),
  (32, 0x6900C39D, .vxfRcp 3 6 2 3),
  (32, 0xD582A59D, .vxfRsqrt 5 21 5 6),
  (32, 0xF602BF9D, .vxfSin 31 21 5 7),
  (32, 0x4683C69D, .vxfCos 6 30 1 2),
  (32, 0x4001F9F, .vcvtRne 31 0 1 0),
  (32, 0xC4800F9F, .vcvtRtz 15 0 1 6),
  (32, 0xE5033E9F, .vcvtRdn 30 25 1 7),
  (32, 0x4583D39F, .vcvtRup 19 30 1 2),
  (32, 0x42008B9F, .vcvtSrk 11 4 0 2),
  (32, 0x51EDA1, .vselSel 13 15 20 0),
  (32, 0x8084D5A1, .vselGath 21 6 1 4),
  (32, 0x2150DAA1, .vselRgath 26 6 20 1),
  (32, 0x1F791A1, .vselCmpr 17 28 29 0),
  (32, 0x40036EA3, .vpermTr 14 27 2),
  (32, 0x80DEA3, .vpermRev 30 6 0),
  (32, 0x810129A3, .vpermZip 9 9 4),
  (32, 0x18221A3, .vpermUnzip 1 17 0),
  (32, 0x88000BA5, .lpostCp 11 2 4)].all reads = true := by decide +kernel

/-- `lpostPkt` to `qstatUnit`. -/
theorem test_decode_12 : [(32, 0xAC8010A5, .lpostPkt 16 3 5),
  (32, 0xC035CA7, .lshapeElem 28 26 3 0),
  (32, 0x6C81E8A7, .lshapeScale 8 15 3 3),
  (32, 0x347A9, .lqctlBind (.q 7) (.s 6)),
  (32, 0x202E24A9, .lqctlRing (.s 36) (.c 8)),
  (32, 0x4021AFA9, .lqctlStat (.s 47) (.q 3)),
  (32, 0x6025C3A9, .lqctlUnbind (.q 3) (.a 3)),
  (32, 0x4000C0AB, .kplan 0 6 0 2),
  (32, 0xE80007AD, .kplayCp 7 2 7),
  (32, 0x808014AD, .kplayFlag 20 0 4),
  (32, 0x40032CAF, .kcommBind 12 25 2),
  (32, 0xCC800EAF, .kcommFree 14 3 6),
  (32, 0x1792B1, .kabrt (.s 18) (.s 47)),
  (32, 0x801D25B3, .qpostLd 5 9 7 4),
  (32, 0x20FB95B3, .qpostFlag 21 28 30 1),
  (32, 0x200088B5, .qapndPut 8 4 1),
  (32, 0x40837AB5, .qapndAdv 26 27 2),
  (32, 0x10007B5, .qapndClr 7 0),
  (32, 0x3F7EB7, .qstatRows .last .last),
  (32, 0x202BA1B7, .qstatUnit (.s 33) (.c 3))].all reads = true := by decide +kernel

/-- `csrRd` to `zand`. -/
theorem test_decode_13 : [(32, 0xC7EB9, .csrRd .last 24),
  (32, 0x81FDFB9, .csrWr (.c 11) 63),
  (32, 0x101FC3B9, .csrSet (.q 3) 63),
  (32, 0x1813C4B9, .csrClr (.q 4) 39),
  (32, 0x200337B9, .csrSwp (.s 55) 6),
  (32, 0x7EBB, .sysCommit .last),
  (32, 0x80000BB, .sysEret),
  (32, 0x10007EBB, .sysCkpt .last),
  (32, 0x19520BD, .tlbiRange (.s 32) (.s 42) (.s 6)),
  (32, 0x31C07EBD, .tlbiAsid .last (.q 7)),
  (32, 0x400046BD, .tlbiAll (.q 6)),
  (32, 0x1898C7BF, .ctxEvict (.q 7) (.s 49) (.c 14)),
  (32, 0x32A647BF, .ctxRestore (.q 7) (.a 4) (.a 2)),
  (32, 0x48A347BF, .ctxResume (.q 7) (.q 6) (.s 34)),
  (32, 0x7315FEBF, .ctxDestroy .last (.s 43) (.a 4)),
  (32, 0x802683BF, .ctxPreempt (.s 3) (.a 5)),
  (32, 0xA00C98BF, .ctxFreeze (.s 24) (.s 25)),
  (16, 0x1C02, .zadd 0 7),
  (16, 0x3E44, .zsub 9 15),
  (16, 0x1486, .zand 2 5)].all reads = true := by decide +kernel

/-- `zor` to `zj`. -/
theorem test_decode_14 : [(16, 0x3808, .zor 0 14),
  (16, 0x204A, .zxor 1 8),
  (16, 0x3B4C, .zmul 13 14),
  (16, 0x60E, .zdiv 8 1),
  (16, 0x2010, .zmin 0 8),
  (16, 0x32D2, .zmax 11 12),
  (16, 0x29D4, .zshl 7 10),
  (16, 0x3996, .zshr 6 14),
  (16, 0x1218, .zsar 8 4),
  (16, 0xDDA, .zmov 7 3),
  (16, 0x251C, .zneg 4 9),
  (16, 0xDC1E, .zaddi 0 55),
  (16, 0x7520, .zli 4 29),
  (16, 0x8DE2, .zld 7 3 2),
  (16, 0xBDA4, .zst 6 15 2),
  (16, 0x32E6, .zldw 11 12 0),
  (16, 0x7EE8, .zstw 11 15 1),
  (16, 0x6D6A, .zldb 5 11 1),
  (16, 0x626C, .zstb 9 8 1),
  (16, 0x5CAE, .zj 370)].all reads = true := by decide +kernel

/-- `zret` to `zret`. -/
theorem test_decode_15 : [(16, 0x30, .zret)].all reads = true := by decide +kernel

/-! ### Encodings that are refused -/

/-- R51, R64, R65: reserved majors and short operations, unassigned functions, reserved fields and reserved operands, by cause. -/
theorem test_refused :
    decodeBytes (bytesLE 0x000000C1 4) = .error .undefOp ∧ decodeBytes (bytesLE 0x0000 2) = .error .undefOp ∧
    decodeBytes (bytesLE 0x0032 2) = .error .undefOp ∧ decodeBytes [0x01, 0x05] = .error .shortFetch ∧
    decodeBytes [] = .error .shortFetch := by decide +kernel

/-! ### Single steps of the scalar families, on values worked out by hand from the rules named -/

/-- R107. The sum wraps; a shift counts modulo 64; the arithmetic shift keeps the sign; MULH is the signed high half. -/
theorem test_arithmetic :
    turns (.add (.s 3) (.s 1) (.s 2) 0) (s12 0xFFFFFFFFFFFFFFFF 2) (holds 1 4) = true ∧
    turns (.sub (.s 3) (.s 1) (.s 2) 0) (s12 1 2) (holds 0xFFFFFFFFFFFFFFFF 4) = true ∧
    turns (.mul (.s 3) (.s 1) (.s 2) 0) (s12 0x100000001 0x100000001) (holds 0x200000001 4) = true ∧
    turns (.mulh (.s 3) (.s 1) (.s 2) 0) (s12 0xFFFFFFFFFFFFFFFF 2) (holds 0xFFFFFFFFFFFFFFFF 4) = true ∧
    turns (.shl (.s 3) (.s 1) (.s 2) 0) (s12 3 65) (holds 6 4) = true ∧
    turns (.shr (.s 3) (.s 1) (.s 2) 0) (s12 0x8000000000000000 63) (holds 1 4) = true ∧
    turns (.sar (.s 3) (.s 1) (.s 2) 0) (s12 0x8000000000000000 62) (holds 0xFFFFFFFFFFFFFFFE 4) = true ∧
    turns (.min (.s 3) (.s 1) (.s 2) 0) (s12 0xFFFFFFFFFFFFFFFF 1) (holds 0xFFFFFFFFFFFFFFFF 4) = true ∧
    turns (.max (.s 3) (.s 1) (.s 2) 0) (s12 0xFFFFFFFFFFFFFFFF 1) (holds 1 4) = true ∧
    turns (.and (.s 3) (.s 1) (.s 2) 0) (s12 12 10) (holds 8 4) = true ∧
    turns (.or (.s 3) (.s 1) (.s 2) 0) (s12 12 10) (holds 14 4) = true ∧
    turns (.xor (.s 3) (.s 1) (.s 2) 0) (s12 12 10) (holds 6 4) = true := by decide +kernel

/-- R108. Truncation toward zero, the zero divisor, and the one quotient that overflows. -/
theorem test_division :
    turns (.div (.s 3) (.s 1) (.s 2) 0) (s12 0xFFFFFFFFFFFFFFF9 2) (holds 0xFFFFFFFFFFFFFFFD 4) = true ∧
    turns (.rem (.s 3) (.s 1) (.s 2) 0) (s12 0xFFFFFFFFFFFFFFF9 2) (holds 0xFFFFFFFFFFFFFFFF 4) = true ∧
    turns (.div (.s 3) (.s 1) (.s 2) 0) (s12 7 0) (holds 0xFFFFFFFFFFFFFFFF 4) = true ∧
    turns (.rem (.s 3) (.s 1) (.s 2) 0) (s12 7 0) (holds 7 4) = true ∧
    turns (.div (.s 3) (.s 1) (.s 2) 0) (s12 0x8000000000000000 0xFFFFFFFFFFFFFFFF) (holds 0x8000000000000000 4) = true ∧
    turns (.rem (.s 3) (.s 1) (.s 2) 0) (s12 0x8000000000000000 0xFFFFFFFFFFFFFFFF) (holds 0 4) = true := by
  decide +kernel

/-- R109, R110. SEL takes B where p1 is false; FSH shifts D and A together right, D being the destination too. -/
theorem test_select :
    turns (.sel (.s 3) (.s 1) (.s 2) 1) (s12 7 9) (holds 9 4) = true ∧
    turns (.sel (.s 3) (.s 1) (.s 2) 0) (s12 7 9) (holds 7 4) = true ∧
    turns (.fsh (.s 3) (.s 1) (.s 2) 0) (fun sl => s12 0x10 4 { sl with s := sl.s.set 3 0xA }) (holds 0xA000000000000001 4) = true := by
  decide +kernel

/-- p1 is a value after a comparison, L is untouched and s3 too. -/
def truth (b : Bool) (sl : Slot) : Bool := decide (sl.p[1] = b) && decide (sl.l = 0) && decide (sl.pc = 0x10004)

/-- R111. Signed and natural order differ on a negative number; a bit number counts modulo 64. -/
theorem test_comparisons :
    turns (.cmpLt 1 (.s 1) (.s 2) 0) (s12 0xFFFFFFFFFFFFFFFF 1) (truth true) = true ∧
    turns (.cmpLtn 1 (.s 1) (.s 2) 0) (s12 0xFFFFFFFFFFFFFFFF 1) (truth false) = true ∧
    turns (.cmpGe 1 (.s 1) (.s 2) 0) (s12 1 1) (truth true) = true ∧ turns (.cmpGt 1 (.s 1) (.s 2) 0) (s12 1 1) (truth false) = true ∧
    turns (.cmpLe 1 (.s 1) (.s 2) 0) (s12 1 1) (truth true) = true ∧ turns (.cmpLen 1 (.s 1) (.s 2) 0) (s12 2 1) (truth false) = true ∧
    turns (.cmpGen 1 (.s 1) (.s 2) 0) (s12 0xFFFFFFFFFFFFFFFF 1) (truth true) = true ∧
    turns (.cmpGtn 1 (.s 1) (.s 2) 0) (s12 1 1) (truth false) = true ∧
    turns (.cmpEq 1 (.s 1) (.s 2) 0) (s12 5 5) (truth true) = true ∧ turns (.cmpNe 1 (.s 1) (.s 2) 0) (s12 5 5) (truth false) = true ∧
    turns (.cmpAny 1 (.s 1) (.s 2) 0) (s12 6 2) (truth true) = true ∧ turns (.cmpNone 1 (.s 1) (.s 2) 0) (s12 6 1) (truth true) = true ∧
    turns (.cmpAll 1 (.s 1) (.s 2) 0) (s12 6 2) (truth true) = true ∧ turns (.cmpNall 1 (.s 1) (.s 2) 0) (s12 6 3) (truth true) = true ∧
    turns (.cmpBit 1 (.s 1) (.s 2) 0) (s12 2 65) (truth true) = true ∧ turns (.cmpNbit 1 (.s 1) (.s 2) 0) (s12 2 64) (truth true) = true ∧
    turns (.cmpEq 0 (.s 1) (.s 2) 0) (s12 5 6) (fun sl => sl.pred 0) = true := by decide +kernel

/-- R112 to R115. The immediates are signed but for LIM's, which enters below the 47 bits that stay. -/
theorem test_immediates :
    turns (.addi (.s 3) (.s 1) 0x3FF) (s1 5) (holds 4 4) = true ∧ turns (.logiAnd (.s 3) (.s 1) 0x40) (s1 0xFF) (holds 0xC0 4) = true ∧
    turns (.logiOr (.s 3) (.s 1) 1) (s1 0x10) (holds 0x11 4) = true ∧ turns (.logiXor (.s 3) (.s 1) 0x7F) (s1 0) (holds 0xFFFFFFFFFFFFFFFF 4) = true ∧
    turns (.logiAndn (.s 3) (.s 1) (.s 2)) (s12 0xFF 0x0F) (holds 0xF0 4) = true ∧
    turns (.logiOrn (.s 3) (.s 1) (.s 2)) (s12 0 1) (holds 0xFFFFFFFFFFFFFFFE 4) = true ∧
    turns (.logiXnor (.s 3) (.s 1) (.s 2)) (s12 5 5) (holds 0xFFFFFFFFFFFFFFFF 4) = true ∧
    turns (.shiShl (.s 3) (.s 1) 63) (s1 3) (holds 0x8000000000000000 4) = true ∧ turns (.shiShr (.s 3) (.s 1) 63) (s1 0x8000000000000000) (holds 1 4) = true ∧
    turns (.shiSar (.s 3) (.s 1) 63) (s1 0x8000000000000000) (holds 0xFFFFFFFFFFFFFFFF 4) = true ∧
    turns (.shiRol (.s 3) (.s 1) 4) (s1 0xF000000000000001) (holds 0x1F 4) = true ∧
    turns (.shiRor (.s 3) (.s 1) 4) (s1 0x1F) (holds 0xF000000000000001 4) = true ∧
    turns (.lim (.s 3) 0x1FFFF) (fun sl => { sl with s := sl.s.set 3 1 }) (holds 0x3FFFF 4) = true := by decide +kernel

/-- R116, R117. A width of 0 is 64; the fixed widths ignore V's; the signed forms extend. -/
theorem test_bitFields :
    turns (.bextU (.s 3) (.s 1) (.s 2)) (s12 0xABCD 0x804) (holds 0xBC 4) = true ∧
    turns (.bextS (.s 3) (.s 1) (.s 2)) (s12 0xABCD 0x804) (holds 0xFFFFFFFFFFFFFFBC 4) = true ∧
    turns (.bextU (.s 3) (.s 1) (.s 2)) (s12 0xABCD 0) (holds 0xABCD 4) = true ∧
    turns (.bextI8 (.s 3) (.s 1) (.s 2)) (s12 0x8000 8) (holds 0xFFFFFFFFFFFFFF80 4) = true ∧
    turns (.bextN8 (.s 3) (.s 1) (.s 2)) (s12 0x8000 8) (holds 0x80 4) = true ∧
    turns (.bextI16 (.s 3) (.s 1) (.s 2)) (s12 0x8000 0) (holds 0xFFFFFFFFFFFF8000 4) = true ∧
    turns (.bextN16 (.s 3) (.s 1) (.s 2)) (s12 0x8000 0) (holds 0x8000 4) = true ∧
    turns (.bextI32 (.s 3) (.s 1) (.s 2)) (s12 0x80000000 0) (holds 0xFFFFFFFF80000000 4) = true ∧
    turns (.bextN32 (.s 3) (.s 1) (.s 2)) (s12 0xFFFFFFFF00000000 48) (holds 0xFFFF 4) = true ∧
    turns (.binsIns (.s 3) (.s 1) (.s 2)) (fun sl => s12 0xFF 0x404 { sl with s := sl.s.set 3 0xA00A }) (holds 0xA0FA 4) = true ∧
    turns (.binsB8 (.s 3) (.s 1) (.s 2)) (fun sl => s12 0x1FF 8 { sl with s := sl.s.set 3 0xA00A }) (holds 0xFF0A 4) = true ∧
    turns (.binsB16 (.s 3) (.s 1) (.s 2)) (s12 0x1FFFF 56) (holds 0xFF00000000000000 4) = true ∧
    turns (.binsB32 (.s 3) (.s 1) (.s 2)) (s12 0x1FFFFFFFF 0) (holds 0xFFFFFFFF 4) = true := by decide +kernel

/-- R118. -/
theorem test_bitCounts :
    turns (.bcntPop (.s 3) (.s 1)) (s1 0xF0F) (holds 8 4) = true ∧ turns (.bcntClz (.s 3) (.s 1)) (s1 1) (holds 63 4) = true ∧
    turns (.bcntClz (.s 3) (.s 1)) (s1 0) (holds 64 4) = true ∧ turns (.bcntCtz (.s 3) (.s 1)) (s1 8) (holds 3 4) = true ∧
    turns (.bcntClo (.s 3) (.s 1)) (s1 0xC000000000000000) (holds 2 4) = true ∧ turns (.bcntCto (.s 3) (.s 1)) (s1 7) (holds 3 4) = true ∧
    turns (.bcntRev (.s 3) (.s 1)) (s1 1) (holds 0x8000000000000000 4) = true ∧
    turns (.bcntBsw (.s 3) (.s 1)) (s1 0x1122334455667788) (holds 0x8877665544332211 4) = true := by decide +kernel

/-- R119, R120: p2 true, p3 false. -/
theorem test_predicateLogic :
    ([(.plogClr 1 2 3 0, false), (.plogNor 1 2 3 0, false), (.plogAndna 1 2 3 0, false), (.plogNota 1 2 3 0, false), (.plogAndnb 1 2 3 0, true),
      (.plogNotb 1 2 3 0, true), (.plogXor 1 2 3 0, true), (.plogNand 1 2 3 0, true), (.plogAnd 1 2 3 0, false), (.plogXnor 1 2 3 0, false),
      (.plogMovb 1 2 3 0, false), (.plogOrna 1 2 3 0, false), (.plogMova 1 2 3 0, true), (.plogOrnb 1 2 3 0, true), (.plogOr 1 2 3 0, true),
      (.plogSet 1 2 3 0, true)] : List (Instr × Bool)).all (fun e => turns e.1 (fun sl => { sl with p := sl.p.set 2 true }) (truth e.2)) = true ∧
    turns (.cset (.s 1) 0x0F) (fun sl => s1 0x12 { sl with p := sl.p.set 2 true }) (fun sl => sl.pred 0 && sl.p[1] && !sl.p[2] && !sl.p[4]) = true := by decide +kernel

/-- A slot whose pc is a value, with the charge. -/
def went (pc used : Nat) (sl : Slot) : Bool := decide (sl.pc = BitVec.ofNat 52 pc) && decide (sl.used = BitVec.ofNat 32 used)

/-- R122 to R124. Displacements count halfwords from the instruction's own address. -/
theorem test_branches :
    turns (.brT 0 0xFFFFF) id (went 0xFFFE 2) = true ∧ turns (.brT 1 8) id (went 0x10004 1) = true ∧ turns (.brF 1 8) id (went 0x10010 2) = true ∧
    turns (.j 0xFFFFE0) id (went 0xFFC0 2) = true ∧
    turns (.jr (.s 3) (.s 1) 0) (s1 0x20003) (fun sl => went 0x20002 2 sl && decide (sl.s[3] = 0x10004)) = true ∧
    turns (.hint 3 77) (s1 5) (went 0x10004 1) = true ∧ turns (.getcPc (.s 3)) id (holds 0x10000 4) = true ∧
    turns (.getcPrd (.s 3)) (fun sl => { sl with p := sl.p.set 7 true }) (holds 0x81 4) = true := by decide +kernel

/-- R126, R127, R128: level 0 of bound 2 advances, then level 0 returns to 0 and level 1 advances; then it falls through. -/
theorem test_loopNest :
    turns (.lset 0 (.s 1)) (s1 0x100000002) (fun sl => decide (sl.lb[0] = 2) && decide (sl.i[0] = 0)) = true ∧
    turns (.lend 1 0xFFFFE) (fun sl => { sl with lb := (sl.lb.set 0 2).set 1 2 }) (fun sl => went 0xFFFC 2 sl && decide (sl.i[0] = 1)) = true ∧
    turns (.lend 1 0xFFFFE) (fun sl => { sl with lb := (sl.lb.set 0 2).set 1 2, i := sl.i.set 0 1 })
      (fun sl => went 0xFFFC 2 sl && decide (sl.i[0] = 0) && decide (sl.i[1] = 1)) = true ∧
    turns (.lend 1 0xFFFFE) (fun sl => { sl with lb := (sl.lb.set 0 2).set 1 2, i := (sl.i.set 0 1).set 1 1 }) (went 0x10004 1) = true ∧
    turns (.adr 0 (.s 3) (.s 1) (.s 2))
      (fun sl => s12 0x1000 0x10 { sl with lcmap := 0x9, c := sl.c.set 0 0xFFFFFFF8, i := sl.i.set 1 3 }) (holds 0xFF8 4) = true := by
  decide +kernel

/-- R66 to R68: two bytes each. -/
theorem test_shortForms :
    ([(.zadd 10 8, 0x10), (.zsub 10 8, 0xFFFFFFFFFFFFFFF6), (.zmul 10 8, 39), (.zand 10 8, 1), (.zor 10 8, 15), (.zxor 10 8, 14), (.zmin 10 8, 3),
      (.zmax 10 8, 13), (.zshl 10 8, 0x6000), (.zshr 10 8, 0), (.zsar 10 8, 0), (.zmov 10 8, 13), (.zneg 10 8, 0xFFFFFFFFFFFFFFF3), (.zdiv 10 8, 0),
      (.zaddi 10 0x3F, 2), (.zli 10 0x20, 0xFFFFFFFFFFFFFFE0)] : List (Instr × Word)).all
        (fun e => turns e.1 (fun sl => { sl with s := (sl.s.set 1 13).set 3 3 }) (holds e.2 2)) = true ∧
    turns (.zj 0x3FF) id (went 0xFFFE 2) = true := by decide +kernel

/-! ### Memory: single steps in the own scratchpad -/

/-- The own scratchpad's offset 0 is virtual 0x20000. -/
def pad : Nat := 0xF000000000

/-- `world` with 8-byte words in the own scratchpad and a changed slot. -/
def padded (l : List (Nat × Nat)) (f : Slot → Slot) : State :=
  l.foldl (fun s e => s.storeLE (pad + e.1) 8 e.2) (worldWith f)

/-- R143, R144, R147, R67. -/
theorem test_loads :
    ([(.ld (.s 3) (.s 1) 0 1 0, 0xFFFFFFFFFFFFFF88), (.ldn (.s 3) (.s 1) 0 1 0, 0x88), (.ld (.s 3) (.s 1) 1 0 0, 0xFFFFFFFFFFFF8899),
      (.ldn (.s 3) (.s 1) 2 0 0, 0x66778899), (.ld (.s 3) (.s 1) 3 0x1F 0, 5), (.ldx (.s 3) (.s 1) 3 0 0 0, 0x2233445566778899)] : List (Instr × Word)).all (fun e =>
        gives e.1 (padded [(0, 5), (8, 0x2233445566778899)] (s1 0x20008)) fun t => holds e.2 4 (t.slot 0)) = true := by decide +kernel

/-- R149. -/
theorem test_window : serves (.pwld (.s 3) (.s 2) 0 0 1 0)
    (padded [(0, 5)] fun sl => s12 0 0 { sl with pw := sl.pw.set 1 (0x8000000000020000, 8) }) (fun t => holds 5 4 (t.slot 0)) = true := by
  decide +kernel

theorem test_shortLoads :
    ([(.zld 10 8 0, 0x2233445586778899), (.zldw 10 8 0, 0xFFFFFFFF86778899), (.zldb 10 8 1, 0x88)] : List (Instr × Word)).all (fun e =>
        gives e.1 (padded [(8, 0x2233445586778899)] (s1 0x20008)) fun t => holds e.2 2 (t.slot 0)) = true := by decide +kernel

/-- R143: SZ bytes change and no others; L stays. -/
theorem test_stores :
    ([(.st (.s 2) (.s 1) 0 1 0, 0x99FFFF), (.st (.s 2) (.s 1) 1 0 0, 0xFF8899), (.stx (.s 2) (.s 1) 2 0 0, 0x66778899)] :
      List (Instr × Nat)).all (fun e =>
        gives e.1 (padded [(8, 0xFFFFFF)] (s12 0x20008 0x2233445566778899)) fun t =>
          decide (t.loadLE (pad + 8) 4 = if e.2 = 0x99FFFF then 0xFF99FF else e.2) && decide ((t.slot 0).l = 0) &&
          decide (t.loadLE (pad + 16) 8 = 0) && decide (t.loadLE pad 8 = 0)) = true := by decide +kernel

theorem test_handles :
    gives (.sth 1 (.s 1) 1 0) (padded [] fun sl => s1 0x20000 { sl with t := sl.t.set 1 ((7 : BitVec 256) <<< 64) })
      (fun t => decide (t.loadLE (pad + 40) 8 = 7) && decide (t.loadLE (pad + 32) 8 = 0)) = true ∧
    serves (.ldh 31 (.s 1) 1 0) (padded [(40, 7)] (s1 0x20000)) (fun t => decide ((t.slot 0).t[31] = (7 : BitVec 256) <<< 64)) = true ∧
    gives (.zst 9 8 1) (padded [] (s12 0x20000 7)) (fun t => decide (t.loadLE (pad + 8) 8 = 7)) = true ∧
    gives (.zstw 9 8 1) (padded [] (s12 0x20000 0x100000007)) (fun t => decide (t.loadLE (pad + 4) 8 = 7)) = true ∧
    gives (.zstb 9 8 1) (padded [] (s12 0x20000 0x107)) (fun t => decide (t.loadLE (pad + 1) 8 = 7)) = true := by decide +kernel

/-- R150 to R153: old 5 at the address, operand 3. -/
theorem test_atomics :
    ([(.amoAdd (.s 3) (.s 1) (.s 2), 8), (.amoAnd (.s 3) (.s 1) (.s 2), 1), (.amoOr (.s 3) (.s 1) (.s 2), 7), (.amoXor (.s 3) (.s 1) (.s 2), 6),
      (.amoMin (.s 3) (.s 1) (.s 2), 3), (.amoMax (.s 3) (.s 1) (.s 2), 5), (.amoSwp (.s 3) (.s 1) (.s 2), 3), (.casD (.s 3) (.s 1) (.s 2), 5),
      (.casW (.s 3) (.s 1) (.s 2), 5)] : List (Instr × Nat)).all (fun e =>
        serves e.1 (padded [(8, 5)] (s12 0x20008 3)) fun t => holds 5 4 (t.slot 0) && decide (t.loadLE (pad + 8) 8 = e.2)) = true ∧
    serves (.casD (.s 3) (.s 1) (.s 2)) (padded [(8, 5)] fun sl => s12 0x20008 3 { sl with s := sl.s.set 3 5 })
      (fun t => holds 5 4 (t.slot 0) && decide (t.loadLE (pad + 8) 8 = 3)) = true ∧
    serves (.amoA96 (.s 3) (.s 1) (.s 4)) (padded [(8, 0xFFFFFFFFFFFFFFFF)] fun sl => s12 0x20008 0 { sl with s := (sl.s.set 4 1).set 5 2 })
      (fun t => holds 0xFFFFFFFFFFFFFFFF 4 (t.slot 0) && decide (t.loadLE (pad + 8) 8 = 0) && decide (t.loadLE (pad + 16) 4 = 3)) = true := by
  decide +kernel

/-- R152, R153: the write index moves while what it would hold stays within the capacity. -/
theorem test_queueClaim :
    serves (.qclaim (.s 3) (.s 1) (.s 2)) (padded [(32, 10), (40, 3), (48, 8)] (s12 0x20020 1))
      (fun t => holds 10 4 (t.slot 0) && decide (t.loadLE (pad + 32) 8 = 11)) = true ∧
    serves (.qclaim (.s 3) (.s 1) (.s 2)) (padded [(32, 10), (40, 3), (48, 8)] (s12 0x20020 2))
      (fun t => holds 0xFFFFFFFFFFFFFFFF 4 (t.slot 0) && decide (t.loadLE (pad + 32) 8 = 10)) = true := by decide +kernel

/-- R156, R157: conditions that hold give the word at once; one that fails frees the pipeline with the PC kept. -/
theorem test_waits :
    ([.waddrEq (.s 3) (.s 1) (.s 2), .waddrGes (.s 3) (.s 1) (.s 2), .waddrAny (.s 3) (.s 1) (.s 2)] : List Instr).all (fun i =>
      gives i (padded [(8, 5)] (s12 0x20008 5)) fun t => holds 5 4 (t.slot 0)) = true ∧
    gives (.waddrNe (.s 3) (.s 1) (.s 2)) (padded [(8, 5)] (s12 0x20008 5))
      (fun t => decide ((t.slot 0).pc = 0x10000) && decide ((t.core 0).running = none)) = true ∧
    turns (.wbead 1 0 0 0) (fun sl => { sl with beads := sl.beads.set 0 2 }) (fun sl => decide (sl.phase = .blocked (.beads 1 0 0 0))) = true := by
  decide +kernel

/-! ### Witnesses: scalar families and memory -/

theorem wit_DivisionDefinesEveryPair : Ready world 0 [0] 0 20 := wit_ready _ _ (by simp) (by omega)

/-- The false selector of SEL, and the true guard of FSH. -/
theorem wit_SelectAndFunnelShift : Ready world 0 [0] 0 1 ∧ (world.slot 0).pred 3 = false ∧
    Ready (worldWith fun sl => { sl with p := sl.p.set 3 true }) 0 [0] 3 1 :=
  ⟨wit_ready _ _ (by simp) (by omega), by decide +kernel, ready_of (by decide +kernel)⟩

theorem wit_PredicatesTakeTheirTruth : Ready world 0 [0] 0 1 := wit_ready _ _ (by simp) (by omega)
theorem wit_ImmediateFormsWriteTheirResult : Ready world 0 [0] 0 1 := wit_ready _ _ (by simp) (by omega)
theorem wit_BitFieldsExtractAndInsert : Ready world 0 [0] 0 1 := wit_ready _ _ (by simp) (by omega)

/-- Both values of the predicate, and both charges. -/
theorem wit_BranchesAndJumpsReachTheirTargets : Ready world 0 [0] 0 2 ∧ Ready world 0 [0] 0 1 ∧ (world.slot 0).pred 0 = true ∧
    (world.slot 0).pred 1 = false :=
  ⟨wit_ready _ _ (by simp) (by omega), wit_ready _ _ (by simp) (by omega), by decide +kernel, by decide +kernel⟩

/-- A nest of two levels: level 0 stands at its last index and level 1 advances; the outermost level 0 alone falls through. -/
def nest : State := worldWith fun sl => { sl with lb := (sl.lb.set 0 2).set 1 3, i := sl.i.set 0 1 }

theorem wit_LoopNestInstructions : Ready nest 0 [0, 2] 0 2 ∧ Ready nest 0 [0, 2] 0 1 ∧
    ¬ Advances (nest.slot 0) 0 ∧ Advances (nest.slot 0) 1 :=
  ⟨ready_of (by decide +kernel), ready_of (by decide +kernel), by unfold Advances; decide +kernel, by unfold Advances; decide +kernel⟩

theorem wit_ShortFormsHaveTheirExpansions :
    Ready world 0 [1, 0] 0 1 ∧ Ready world 0 [1, 0] 0 2 ∧ Ready world 0 [1, 0] 0 3 ∧ Ready world 0 [1, 0] 0 20 :=
  by and_intros <;> exact wit_ready _ _ (by simp) (by omega)

theorem wit_FalseGuardOnlyAdvances : guardOf (.add (.s 3) (.s 1) (.s 2) 1) = some 1 ∧
    Ready world 0 [0, 1, 2, 3, 8, 9, 10, 11, 12, 32, 33, 34, 40, 48, 49, 50, 51] 0 1 ∧ (world.slot 0).cls ≠ 1 ∧
    (world.slot 0).pred 1 = false :=
  ⟨rfl, wit_ready _ _ (by simp) (by omega), by decide +kernel, by decide +kernel⟩

/-- An activation whose actor stays, and one of an actor that is exiting. -/
theorem wit_ActivationControl : Ready world 0 [0] 0 1 ∧ Ready world 0 [1, 0] 0 1 ∧ (world.slot 0).status = .live ∧
    (world.slot 0).exiting = false ∧ (world.slot 0).rings = [] ∧
    (let s := worldWith fun sl => { sl with exiting := true }
     Ready s 0 [0] 0 1 ∧ Ready s 0 [1, 0] 0 1 ∧ (s.slot 0).exiting = true ∧ (s.slot 0).launch = none ∧ Unheld s 0) :=
  ⟨wit_ready _ _ (by simp) (by omega), wit_ready _ _ (by simp) (by omega), by decide +kernel, by decide +kernel, by decide +kernel,
   ready_of (by decide +kernel), ready_of (by decide +kernel), by unfold Unheld; decide +kernel⟩

/-- s1 at the last naturally aligned place of the page for each size; the short forms take a nonnegative offset; every
word of the stacks can be read, and none is held. -/
theorem wit_LoadsReadOwnStorage :
    Ready (worldWith (s1 0x20008)) 0 [0, 2] 0 2 ∧ Ready (worldWith (s1 0x50000)) 0 [1, 0] 0 2 ∧
    Owns (worldWith (s1 0x2FFF8)) .load .load (formM · (.s 1) 8 0) 8 8 ∧ Owns (worldWith (s1 0x2FFFF)) .load .load (formM · (.s 1) 1 0x1F) 1 1 ∧
    Owns (worldWith (s1 0x20000)) .load .load (formX · (.s 1) 3) 8 8 ∧ Owns (worldWith (s1 0x20000)) .load .handle (formM · (.s 1) 32 1) 32 32 ∧
    Owns (worldWith (s1 0x50000)) .load .load (formZ · 8 8 3) 8 8 ∧ Owns (worldWith (s1 0x50000)) .load .load (formZ · 8 4 1) 4 4 ∧
    Owns (worldWith (s1 0x50001)) .load .load (formZ · 8 1 0) 1 1 := by
  and_intros <;> first | exact ready_of (by decide +kernel) | exact owns_of (by decide +kernel)

theorem wit_LoadsReadOwnStorage_walk : (worldWith (s1 0x20008)).mayWait = false ∧
    ∀ j, ((worldWith (s1 0x20008)).stack j).sound = true := by
  have h : ∀ i : Fin 8, (worldWith (s1 0x20008)).hbm[i].sound = true := by decide +kernel
  exact ⟨by decide +kernel, fun j => h (ix 8 j)⟩

/-- A window of 12 bytes: an 8-byte load at 8 reads 4 of them, one at 16 none. -/
def windowed (o : Word) : State := worldWith fun sl => s1 o { sl with pw := sl.pw.set 1 (0x8000000000020000, 12) }

theorem wit_WindowLoadsStayWithinSize : Ready (windowed 8) 0 [0] 0 2 ∧ Ready (windowed 16) 0 [0] 0 2 ∧
    Owns (windowed 8) .load .load (fun _ => BitVec.ofNat 64 ((0x8000000000020000 : Word).toNat / 8 % 2 ^ 49 * 8 + 8)) 4 1 := by
  and_intros <;> first | exact ready_of (by decide +kernel) | exact owns_of (by decide +kernel)

theorem wit_StoresWriteOwnStorage :
    ((worldWith (s1 0x20008)).slot 0).phase = .running ∧ Ready (worldWith (s1 0x20008)) 0 [0, 2] 0 1 ∧
    Ready (worldWith (s1 0x50000)) 0 [1, 0] 0 1 ∧ Owns (worldWith (s1 0x2FFF8)) .store .store (formM · (.s 1) 8 0) 8 8 ∧
    Owns (worldWith (s1 0x20000)) .store .store (formX · (.s 1) 3) 8 8 ∧ Owns (worldWith (s1 0x20000)) .store .handle (formM · (.s 1) 32 1) 32 32 ∧
    Owns (worldWith (s1 0x50000)) .store .store (formZ · 8 8 3) 8 8 ∧ Owns (worldWith (s1 0x50000)) .store .store (formZ · 8 4 1) 4 4 ∧
    Owns (worldWith (s1 0x50001)) .store .store (formZ · 8 1 0) 1 1 := by
  and_intros <;> first | decide +kernel | exact ready_of (by decide +kernel) | exact owns_of (by decide +kernel)

/-- The lowest address that is too wide. -/
theorem wit_WideAddressesTrap : Ready (worldWith (s1 (2 ^ 52))) 0 [0] 0 2 ∧ TrapsHigh (worldWith (s1 (2 ^ 52))) 0 ∧
    2 ^ 52 ≤ (formM ((worldWith (s1 (2 ^ 52))).slot 0) (.s 1) 8 0).toNat :=
  ⟨ready_of (by decide +kernel), ⟨by decide +kernel, by decide +kernel, by unfold Unheld; decide +kernel⟩, by decide +kernel⟩
/-- A store to HBM; the same state with that store posted; and one posted to compute-capable memory, whose bank an alert
holds. -/
def storing : State := worldWith (s12 0x10100 7)

noncomputable def posted : State := after (.st (.s 2) (.s 1) 3 0 0) storing

noncomputable def postedHeld : State :=
  let t := after (.st (.s 2) (.s 1) 3 0 0) (worldWith (s12 0x200100 7))
  t.modStack 0 fun x => { x with holds := [⟨.alert, t.bankOf 0x6FFC000100, 0, 0, t.tick + 1⟩] }

theorem wit_ReleasesPerformPostedStores : Ready storing 0 [0] 0 1 ∧
    okAnd (storing.check 0 (storing.slot 0).asid (storing.slot 0).cls .store .store (formM (storing.slot 0) (.s 1) 8 0) 8 8)
      (fun x => decide (x.tt = 0) && decide (x.prop ≠ 2) && decide ((walked storing 0 x).stuck = none)) = true ∧
    Ready posted 0 [0] 0 1 ∧ Unheld posted 0 ∧ (posted.slot 0).phase = .running ∧
    ((posted.net.reqs.filter (pending posted 0)).map Request.op) = [.write 8 7] ∧
    Ready postedHeld 0 [0] 0 1 ∧
    (postedHeld.net.reqs.any fun r => pending postedHeld 0 r && (postedHeld.waitsAt r.key r.op.size).isSome) = true := by
  and_intros <;> first | exact ready_of (by decide +kernel) | (unfold Unheld; decide +kernel) | decide +kernel

/-- Loads of HBM and of core 1's scratchpad, with the requests they send, and the answer of the second. -/
noncomputable def loadingHbm : State := after (.ld (.s 3) (.s 1) 3 0 0) (worldWith (s1 0x10100))
noncomputable def loadingPad : State := after (.ld (.s 3) (.s 1) 3 0 0) (worldWith (s1 0x30100))
noncomputable def answered : State := after (.scratchpadAccess 0) loadingPad

/-- The first request and answer in flight. -/
def request0 (s : State) (p : Request → Bool) : Bool :=
  match s.net.reqs with
  | r :: _ => p r
  | [] => false

def answer0 (s : State) (p : Answer → Bool) : Bool :=
  match s.net.answers with
  | a :: _ => p a
  | [] => false

theorem wit_RequestsAreAnsweredByTheirOwners_sent : Ready (worldWith (s1 0x10100)) 0 [0] 0 2 ∧ Ready (worldWith (s1 0x30100)) 0 [0] 0 2 ∧
    ([0x10100, 0x30100] : List Word).all (fun va => let s := worldWith (s1 va)
      okAnd (s.check 0 (s.slot 0).asid (s.slot 0).cls .load .load (formM (s.slot 0) (.s 1) 8 0) 8 8)
        fun x => decide (x.tt ≠ 5) && decide (windowCore (paOf x.key) ≠ some 0)) = true :=
  ⟨ready_of (by decide +kernel), ready_of (by decide +kernel), by decide +kernel⟩

theorem wit_RequestsAreAnsweredByTheirOwners_answered :
    request0 loadingHbm (fun r => decide (r.op = .read 8) && decide (r.cont = some (.load (.s 3) 8 true)) && !loadingHbm.poisoned r.key 8 &&
      decide (loadingHbm.performable 0 false = some r) && (!loadingHbm.retiredAt r.key || r.arrived) && (loadingHbm.stack (stackOf (paOf r.key))).sound) = true ∧
    request0 loadingPad (fun r => decide (r.op = .read 8) && decide (r.cont = some (.load (.s 3) 8 true)) && !loadingPad.poisoned r.key 8 &&
      decide (loadingPad.performable 0 true = some r) && !loadingPad.bankGuarded r.key 8 false && !isRegister r.key) = true ∧
    request0 posted (fun r => decide (r.op = .write 8 7) && decide (r.cont = none) && decide (posted.performable 0 false = some r)) = true ∧
    request0 postedHeld (fun r => decide (postedHeld.reaching 0 false = some r) && postedHeld.mustWait 0 r && !r.arrived &&
      !postedHeld.retiredAt r.key) = true ∧
    answer0 answered (fun a => decide (answered.awaits a = some 0) && decide (a.cause = 0) && decide (a.cont = .load (.s 3) 8 true) &&
      decide (a.value < 2 ^ 64)) = true := by decide +kernel

/-- R154, R355, R356: the value of core 1's scratchpad comes back with the reply. -/
theorem test_remoteLoad :
    (let s := (worldWith (s1 0x30100)).storeLE 0xF000100100 8 77
     let t := after (.reply 0) (after (.scratchpadAccess 0) (after (.ld (.s 3) (.s 1) 3 0 0) s))
     holds 77 4 (t.slot 0) && decide ((t.slot 0).phase = .ready) && decide (t.net.reqs = []) && decide (t.net.answers = [])) = true := by decide +kernel

theorem wit_AtomicsExchangeInOneStep :
    Ready (worldWith (s1 0x20020)) 0 [0] 0 2 ∧ ((worldWith (s1 0x20020)).slot 0).phase = .running ∧ (worldWith (s1 0x20020)).hasFeat 3 = true ∧
    Owns (worldWith (s1 0x20020)) .atomic .atomic (Slot.read · (.s 1)) 8 8 ∧ Owns (worldWith (s1 0x20024)) .atomic .atomic (Slot.read · (.s 1)) 12 4 ∧
    Owns (worldWith (s1 0x20024)) .atomic .atomic (Slot.read · (.s 1)) 4 4 ∧ Owns (worldWith (s1 0x20020)) .atomic .atomic (Slot.read · (.s 1)) 24 32 := by
  and_intros <;> first | decide +kernel | exact ready_of (by decide +kernel) | exact owns_of (by decide +kernel)

/-- The word at 0x20008 is 0, so equality holds of s2 = 0 and fails of s2 = 1; every counter is at most 0, and one is not. -/
theorem wit_WaitsEndOrBlock : Ready (worldWith (s1 0x20008)) 0 [0] 0 1 ∧
    okAnd ((worldWith (s1 0x20008)).check 0 0 2 .load .wait 0x20008 8 8) (fun x => !(worldWith (s1 0x20008)).poisoned x.key 8 &&
      decide (BitVec.ofNat 64 ((worldWith (s1 0x20008)).loadLE x.key 8) = ((worldWith (s1 0x20008)).slot 0).read (.s 2)) &&
      decide (BitVec.ofNat 64 ((worldWith (s12 0x20008 1)).loadLE x.key 8) ≠ ((worldWith (s12 0x20008 1)).slot 0).read (.s 2))) = true ∧
    ((worldWith (s1 0x20008)).slot 0).asid = 0 ∧ ((worldWith (s1 0x20008)).slot 0).cls = 2 ∧
    (∀ i : Fin 4, (world.slot 0).beads[i] ≤ 0) ∧
    ¬ ((worldWith fun sl => { sl with beads := sl.beads.set 2 1 }).slot 0).beads[2] ≤ 0 :=
  ⟨ready_of (by decide +kernel), by and_intros <;> decide +kernel⟩

/-! ### Records of several words

Whether a translation is still in the TLB is a free value (log 8), so a second access to a page cannot be evaluated. The
copies below take that value as an argument: a read that gives the same with either value gives it. -/

def leafB (b : Bool) (s : State) (c : Nat) (asid : BitVec 16) (va : Nat) : Except (BitVec 10) (Word × Nat × Option TlbEntry) :=
  let found := (s.walk c asid va).map fun r => (r.1, r.2, some ⟨asid, va / 2 ^ r.2, r.2, r.1⟩)
  match (s.core c).tlb.find? fun e => decide (e.asid = asid) && decide (va / 2 ^ e.bits = e.page) with
  | some e => if b then .ok (e.leaf, e.bits, none) else found
  | none => found

theorem leafB_eq (s : State) (c : Nat) (asid : BitVec 16) (va : Nat) : s.leafOf c asid va = leafB (Config.tlbKeeps s.tick) s c asid va := rfl

def translateB (b : Bool) (s : State) (c : Nat) (asid : BitVec 16) (cls : BitVec 2) (kind : AccKind) (va : Word) : Except (BitVec 10) Xlate :=
  if bits va 63 52 ≠ 0 then .error 0x105#10
  else
    match leafB b s c asid va.toNat with
    | .error e => .error e
    | .ok (leaf, size, fill) =>
      if permits kind cls leaf then .ok ⟨leaf, size, bits leaf 63 48 * 2 ^ 48 + bits leaf 47 16 * 0x10000 + va.toNat % 2 ^ size, fill⟩
      else .error 0x102#10

theorem translateB_eq (s : State) (c : Nat) (asid : BitVec 16) (cls : BitVec 2) (kind : AccKind) (va : Word) :
    s.translate c asid cls kind va = translateB (Config.tlbKeeps s.tick) s c asid cls kind va := by
  rfl

/-- The access checks, the translation of a range and that of a compute-capable page, with either value. -/
def checkB (b : Bool) (s : State) (c : Nat) (asid : BitVec 16) (cls : BitVec 2) (kind : AccKind) (r : Reach) (va : Word) (n align : Nat) :
    Except (BitVec 10) Xlate :=
  if bits va 63 52 ≠ 0 then .error 0x105#10
  else
    match translateB b s c asid cls kind va with
    | .error e => .error e
    | .ok x =>
      if !reaches r c x n then .error 0x106#10
      else if va.toNat % align ≠ 0 ∨ 2 ^ x.bits < va.toNat % 2 ^ x.bits + n then .error 0x104#10
      else
        match s.guardCause c asid va x n (decide (kind ≠ .load)) with
        | some e => .error e
        | none =>
          if x.tt = 0 ∧ kind = .store ∧ s.retiredAt x.key then .error 0x382#10
          else if x.tt = 0 ∧ s.unreachable x.key then .error 0x3C1#10
          else .ok x

theorem checkB_eq (s : State) (c : Nat) (asid : BitVec 16) (cls : BitVec 2) (kind : AccKind) (r : Reach) (va : Word) (n align : Nat) :
    s.check c asid cls kind r va n align = checkB (Config.tlbKeeps s.tick) s c asid cls kind r va n align := rfl

def rangeB (b : Bool) (s : State) (kind : AccKind) (tt top : Nat) (va : Word) (n : Nat) : Except (BitVec 10 × Word) (State × Nat) :=
  match translateB b s (keyCore 0) (s.slot 0).asid (s.slot 0).cls kind va with
  | .error e => .error (e, va)
  | .ok x =>
    if x.tt ≠ tt ∨ windowCore x.pa ≠ some (keyCore 0) then .error (0x106#10, va)
    else if 2 ^ min x.bits top < va.toNat % 2 ^ min x.bits top + n then .error (0x003#10, 0)
    else .ok (s.fillTlb (keyCore 0) x, windowOff x.pa)

theorem rangeB_eq (s : State) (kind : AccKind) (tt top : Nat) (va : Word) (n : Nat) :
    s.xlateRange 0 kind tt top va n = rangeB (Config.tlbKeeps s.tick) s kind tt top va n := rfl

def pageB (b : Bool) (s : State) (kind : AccKind) (va : Word) : Except (BitVec 10 × Word) (State × Xlate) :=
  match translateB b s (keyCore 0) (s.slot 0).asid (s.slot 0).cls kind va with
  | .error e => .error (e, va)
  | .ok x => if x.tt ≠ 0 ∨ !x.cc ∨ nodeOf x.key ≠ s.node then .error (0x106#10, va) else .ok (s.fillTlb (keyCore 0) x, x)

theorem pageB_eq (s : State) (kind : AccKind) (va : Word) : s.ccPage 0 kind va = pageB (Config.tlbKeeps s.tick) s kind va := rfl

/-- What holds with either value holds. -/
theorem either {p : Bool → Bool} (h : (p true && p false) = true) (b : Bool) : p b = true := by
  simp only [Bool.and_eq_true] at h
  cases b
  · exact h.2
  · exact h.1

/-- Ordinary loads with either value, as long as it is the same one's turn. -/
def wordB (b : Bool) (s : State) (c : Nat) (asid : BitVec 16) (cls : BitVec 2) (va : Word) : Except (BitVec 10) (State × Word) :=
  match checkB b s c asid cls .load .load va 8 8 with
  | .error e => .error e
  | .ok x =>
    (((s.fillTlb c x).touch x.key 8).performAt x.key (.read 8) x.tol x.nan false).map fun r => (r.1, BitVec.ofNat 64 r.2)

def wordsB (b : Bool) (s : State) (c : Nat) (asid : BitVec 16) (cls : BitVec 2) (va : Word) : Nat → Except (BitVec 10 × Word) (State × List Word)
  | 0 => .ok (s, [])
  | n + 1 =>
    match wordB b s c asid cls va with
    | .error e => .error (e, va)
    | .ok (u, w) => if u.tick = s.tick then (wordsB b u c asid cls (va + 8) n).map fun r => (r.1, w :: r.2) else .error (0, 0)

theorem wordB_eq (s : State) (c : Nat) (asid : BitVec 16) (cls : BitVec 2) (va : Word) :
    s.ordinaryWord c asid cls va = wordB (Config.tlbKeeps s.tick) s c asid cls va := rfl

theorem wordsB_of (n : Nat) : ∀ {s : State} {c : Nat} {asid : BitVec 16} {cls : BitVec 2} {va : Word} {r : State × List Word},
    wordsB (Config.tlbKeeps s.tick) s c asid cls va n = .ok r → s.ordinaryWords c asid cls va n = .ok r := by
  induction n with
  | zero => intro s c asid cls va r h; exact h
  | succ n ih =>
    intro s c asid cls va r h
    cases hw : wordB (Config.tlbKeeps s.tick) s c asid cls va with
    | error e => simp only [wordsB, hw, reduceCtorEq] at h
    | ok q =>
      obtain ⟨u, w⟩ := q
      simp only [wordsB, hw] at h
      simp only [State.ordinaryWords, wordB_eq, hw]
      by_cases ht : u.tick = s.tick
      · rw [if_pos ht, ← ht] at h
        cases hr : wordsB (Config.tlbKeeps u.tick) u c asid cls (va + 8) n with
        | error e => rw [hr] at h; cases h
        | ok v => rw [hr] at h; rw [ih hr]; exact h
      · rw [if_neg ht] at h; cases h

/-- A record of the running slot's own scratchpad, and what the state that its loads leave is to have. -/
def recordAt (s : State) (va : Word) (ws : List Word) (p : State → Bool) : Bool :=
  [true, false].all fun b => okAnd (wordsB b s 0 0 2 va ws.length) fun r => decide (r.2 = ws) && p r.1

theorem record_of {s : State} {va : Word} {ws : List Word} {p : State → Bool} (h : recordAt s va ws p = true) :
    ∃ u, s.ordinaryWords 0 0 2 va ws.length = .ok (u, ws) ∧ p u = true := by
  simp only [recordAt, List.all_cons, List.all_nil, Bool.and_true] at h
  obtain ⟨r, hr, hp⟩ := ok_of (either (p := fun b => okAnd (wordsB b s 0 0 2 va ws.length) fun r => decide (r.2 = ws) && p r.1) h
    (Config.tlbKeeps s.tick))
  simp only [Bool.and_eq_true, decide_eq_true_eq] at hp
  refine ⟨r.1, ?_, hp.2⟩
  rw [wordsB_of _ hr, ← hp.1]

/-- The command that MPOST and LPOST read: what the checks of its second access find does not matter. -/
def commandAt (s : State) (h : Handle) (p : State → Vector Word 8 → Bool) : Bool :=
  h.val && decide (h.base.toNat % 64 = 0) && okAnd (s.xlateRange 0 .load 1 64 h.base 64) fun e =>
    [true, false].all (fun b => okAnd (checkB b e.1 0 (e.1.slot 0).asid (e.1.slot 0).cls .load .load h.base 64 64) fun _ => true) &&
    !e.1.poisoned (e.1.winKey 0 e.2) 64 &&
    p e.1 (vec8 ((List.range 8).map fun i => BitVec.ofNat 64 (e.1.loadLE (e.1.winKey 0 e.2 + 8 * i) 8)))

theorem command_of {s : State} {h : Handle} {p : State → Vector Word 8 → Bool} (hc : commandAt s h p = true) :
    ∃ u w, s.readCommand 0 h = .ok (u, w) ∧ p u w = true := by
  simp only [commandAt, Bool.and_eq_true, decide_eq_true_eq] at hc
  obtain ⟨e, he, hp⟩ := ok_of hc.2
  simp only [Bool.and_eq_true, List.all_cons, List.all_nil, Bool.not_eq_true'] at hp
  have hb := either (p := fun b => okAnd (checkB b e.1 0 (e.1.slot 0).asid (e.1.slot 0).cls .load .load h.base 64 64) fun _ => true)
    (by simp [hp.1.1.1, hp.1.1.2.1]) (Config.tlbKeeps e.1.tick)
  rw [← checkB_eq] at hb
  obtain ⟨x, hx, -⟩ := ok_of hb
  refine ⟨e.1, _, ?_, hp.2⟩
  have h0 : keyCore 0 = 0 := rfl
  unfold State.readCommand
  rw [if_neg (by simp [hc.1.1, hc.1.2]), he]
  simp only [h0, hx, hp.1.2]
  rfl


/-- With nothing held and no path down, polling a queue waits for nothing. -/
theorem poll_stuck {s : State} (h : (s.calm && decide (s.stuck = none)) = true) (cl q : Nat) : (s.pollQueue cl q).stuck = none := by
  simp only [Bool.and_eq_true, decide_eq_true_eq] at h
  unfold State.pollQueue
  dsimp only
  split
  · exact h.2
  · split
    · exact h.2
    · split
      · exact h.2
      · exact (Still.openRead h.1 _ 8).stuck.trans h.2
/-! ### Witnesses: messages, actors, launches, work, barriers -/

/-- `world` with an object descriptor at physical 0x1000000, generation 7, and words in the own scratchpad. -/
def objects (l : List (Nat × Nat)) (f : Slot → Slot) : State := (padded l f).storeLE 0x1000008 8 7

/-- The first message in flight. -/
def flight0 (s : State) (p : Flight → Bool) : Bool :=
  match s.net.flights with
  | f :: _ => p f
  | [] => false

/-- SEND to core 1's mailboxes with ST one below its limit and one reservation granted; SENDR to core 1. -/
def sending (b : Word) : State := worldWith fun sl => s12 0x40000 b { sl with beads := sl.beads.set 1 62, granted := 1 }
def replying : State := worldWith (s12 0x1000800 0x5000000000000)

/-- A SEND in slot 0 comes to its core's checks of the beads and reservations. -/
def sendsAt (s : State) (p : Slot → Bool) : Bool :=
  readyAt s 0 [0] 0 2 && okAnd (s.translate 0 0 2 .store 0x40000) fun z =>
    let u := walked s 0 z
    decide (z.tt = 4) && decide (u.stuck = none) && decide ((u.slot 0).phase = .running) && !u.heldStore 0 (u.slot 0).ctxid && p (u.slot 0)

/-- Without a reservation and with one, without a status word and with one; then where no reservation is left, and at the limit of ST. -/
theorem wit_SendsPutTheirMessageInFlight :
    ([0, 0x10000000, 0x8000008, 0x18000008] : List Word).all (fun b => sendsAt (sending b) fun sl =>
      decide (sl.beads[1] < 63) && decide (sl.resv.length < sl.granted)) = true ∧
    sendsAt ((sending 0x10000000).modSlot 0 fun sl => { sl with resv := [1] }) (fun sl => decide (sl.granted ≤ sl.resv.length)) = true ∧
    sendsAt ((sending 0).modSlot 0 fun sl => { sl with beads := sl.beads.set 1 63 }) (fun sl => decide (sl.beads[1] = 63)) = true ∧
    readyAt replying 0 [0] 0 2 = true ∧ (replying.slot 0).phase = .running ∧ (replying.slot 0).beads[1] < 63 ∧ Unheld replying 0 ∧
    ((replying.slot 0).read (.s 1)).getLsbD 11 = true ∧ ((replying.slot 0).read (.s 1)).toNat / 2 ^ 36 % 256 = replying.module.nodeX.toNat ∧
    ((replying.slot 0).read (.s 1)).toNat / 2 ^ 44 % 256 = replying.module.nodeY.toNat := by unfold Unheld; decide +kernel

/-- R188, R189: where the messages go and what they carry. -/
theorem test_send :
    gives (.send (.s 1) (.s 2) 9 2) (sending 0x300000000) (fun t => flight0 t (fun f => decide (f.dst = 1) && decide (f.msg.type = 9) &&
      decide (f.msg.mb.val = 2) && decide (f.msg.key = 3)) && decide ((t.slot 0).beads[1] = 63)) = true ∧
    gives (.sendr (.s 1) (.s 2) 9 2) replying (fun t => flight0 t (fun f => decide (f.dst = 1) && f.msg.vc) &&
      decide ((t.slot 0).beads[1] = 1)) = true := by decide +kernel

/-- A mailbox that holds a message, and two that hold none. -/
def boxed : State := padded [(0, 0xF0)] fun sl => s12 0x20000 (8 * 64) { sl with
  mb := (sl.mb.set 1 { sl.mb[1] with conf := true, ord := true, quota := 1, held := [⟨⟨0, 0, .replicate 6 0⟩, 0, .quota⟩] }).set 2
    { sl.mb[2] with conf := true, ord := true, quota := 1 } }

/-- The largest quota; then the mailboxes of the other clauses. -/
theorem wit_MailboxConfiguration : Ready boxed 0 [0] 0 2 ∧ ((boxed.slot 0).asid, (boxed.slot 0).cls, (boxed.slot 0).phase) = (0, 2, .running) ∧
    (∃ u, (boxed.release 0).ordinaryWords 0 0 2 0x20000 4 = .ok (u, [0xF0, 0, 0, 0]) ∧
      (decide (u.stuck = none) && decide (u.poolUsed 0 + 64 ≤ 128) && decide ((u.slot 0).mb = (boxed.slot 0).mb)) = true) ∧
    ([(0, false, true), (1, true, false), (2, true, true)] : List (Fin 4 × Bool × Bool)).all (fun e => let m := (boxed.slot 0).mb[e.1]
      decide (m.conf = e.2.1) && decide (m.ord = e.2.1) && decide ((m.held = []) = e.2.2) &&
      decide (((m.held.filter fun h => decide (h.entry = .quota)) = []) = e.2.2)) = true :=
  ⟨ready_of (by decide +kernel), by decide +kernel, record_of (s := boxed.release 0) (va := 0x20000) (ws := [0xF0, 0, 0, 0])
     (p := fun u => decide (u.stuck = none) && decide (u.poolUsed 0 + 64 ≤ 128) && decide ((u.slot 0).mb = (boxed.slot 0).mb)) (by decide +kernel),
   by decide +kernel⟩

theorem test_mailboxes :
    gives (.mbcfgOff (.s 3) (.s 4)) (boxed.modSlot 0 fun sl => { sl with s := sl.s.set 4 1 }) (fun t => holds 0x8000000000000003 4 (t.slot 0)) = true ∧
    gives (.mbcfgStat (.s 3) (.s 4)) (boxed.modSlot 0 fun sl => { sl with s := sl.s.set 4 1 }) (fun t => holds 0xC081 4 (t.slot 0)) = true := by
  decide +kernel

/-- An empty slot as a target, another actor of the same address space in slot 1, and a creation record. -/
def creating : State := (objects [(0, 0x1000000), (8, 7), (16, 2 ^ 32)] (s1 0x20000)).modSlot 1 fun sl => { sl with status := .live, cls := 1 }

theorem wit_ActorsAreCreatedAndEnded : Ready creating 0 [0] 0 4 ∧
    (creating.slot (slotKey 0 2)).status ≠ .live ∧ (creating.slot (slotKey 0 1)).status = .live ∧ slotKey 0 1 ≠ 0 ∧ (creating.slot 0).status = .live ∧
    (creating.removeActor (slotKey 0 1) (some 0x212)).stuck = none ∧ ((creating.slot 0).asid, (creating.slot 0).cls) = (0, 2) ∧
    ∃ u, (creating.release 0).ordinaryWords 0 0 2 0x20000 4 = .ok (u, [0x1000000, 7, 0x100000000, 0]) ∧
    (let r := creationOf [0x1000000, 7, 0x100000000, 0] 0
     let s := u.openObject r.1.desc
     r.2 && decide (s.stuck = none) && r.1.fits && decide (r.1.cls.toNat < 2) && s.current r.1.desc r.1.gen &&
      okAnd (s.placeFor 0 r.1) fun n => decide (slotKey 0 n ≠ 0)) = true :=
  ⟨ready_of (by decide +kernel), by decide +kernel, by decide +kernel, by decide +kernel, by decide +kernel, by decide +kernel,
   by decide +kernel, record_of (s := creating.release 0) (va := 0x20000) (ws := [0x1000000, 7, 0x100000000, 0])
     (p := fun u => let r := creationOf [0x1000000, 7, 0x100000000, 0] 0
       let s := u.openObject r.1.desc
       r.2 && decide (s.stuck = none) && r.1.fits && decide (r.1.cls.toNat < 2) && s.current r.1.desc r.1.gen &&
        okAnd (s.placeFor 0 r.1) fun n => decide (slotKey 0 n ≠ 0)) (by decide +kernel)⟩

/-- A class 0 issuer and a target of another address space. -/
theorem wit_ActorsAreCreatedAndEnded_denied : let s := (worldWith fun sl => { s1 0x1000 sl with cls := 0 }).modSlot 1 fun sl => { sl with status := .live, asid := 5 }
    Ready s 0 [0] 0 4 ∧ slotKey (((s.slot 0).read (.s 1)).toNat % 4096) (((s.slot 0).read (.s 1)).toNat / 4096 % 8) = 1 ∧ (s.slot 1).status = .live ∧ (s.slot 0).cls.toNat < 2 ∧
    (s.slot 1).asid ≠ (s.slot 0).asid :=
  ⟨ready_of (by decide +kernel), by decide +kernel⟩

theorem test_actors :
    gives (.actorKill (.s 3) (.s 2)) (creating.modSlot 0 (s12 0 0x1000)) (fun t => decide ((t.slot 1).status ≠ .live) && holds 0 4 (t.slot 0)) = true ∧
    gives .actorExit creating (fun t => (t.slot 0).exiting) = true := by decide +kernel

/-- One child on core 0, with neither messages nor windows; the same launch, queued. -/
def launchWords : List Word := [0x1000000, 1, 0x1000000, 7, 0x10000, 0, 0x8000000, 0]
def launching : State := objects [(0, 2 ^ 24), (8, 1), (16, 0x1000000), (24, 7), (32, 2 ^ 16), (48, 2 ^ 27)] (s1 0x20000)
def launched : State := (worldWith (s1 1)).queueLaunch 0 (vec8 launchWords) [] [] .packet 0 0 0

theorem wit_LaunchesAreQueuedAndJoined : Ready launching 0 [0] 0 4 ∧
    ((launching.slot 0).asid, (launching.slot 0).cls) = (0, 2) ∧ blockWords (vec8 launchWords) = 0 ∧ wantsJoin (vec8 launchWords) = false ∧
    ∃ u, (launching.release 0).ordinaryWords 0 0 2 0x20000 8 = .ok (u, launchWords) ∧
    (let s := u.openObject (vec8 launchWords)[2]
     decide (s.stuck = none) && decide ((s.die 0).queued < 64) &&
     okAnd (s.launchStatus 0 0 (vec8 launchWords) 0 0 none) fun act => decide (act = 0)) = true :=
  ⟨ready_of (by decide +kernel), by decide +kernel, by decide +kernel, by decide +kernel,
   record_of (s := launching.release 0) (va := 0x20000) (ws := launchWords)
     (p := fun u => let s := u.openObject (vec8 launchWords)[2]
       decide (s.stuck = none) && decide ((s.die 0).queued < 64) && okAnd (s.launchStatus 0 0 (vec8 launchWords) 0 0 none) fun act => decide (act = 0))
     (by decide +kernel)⟩

theorem wit_LaunchesAreQueuedAndJoined_joined : readyAt launched 0 [0] 0 2 = true ∧ launched.launchOf 0 77 = none ∧
    (match launched.launchOf 0 ((launched.slot 0).read (.s 1)).toNat with
     | some x => decide (x.asid = (launched.slot 0).asid) && decide ((launched.killLaunch 0 x).1.stuck = none) &&
         decide (((launched.killLaunch 0 x).1.slot 0).status = .live)
     | none => false) = true := by decide +kernel

/-- R197, R198: of the one child none is placed, and the kill cancels it. -/
theorem test_launch :
    gives (.joinStat (.s 3) (.s 1)) launched (fun t => decide ((t.slot 0).l = 2 ^ 48)) = true ∧
    gives (.joinKill (.s 3) (.s 1)) launched (fun t => decide ((t.slot 0).l = 1)) = true := by decide +kernel

/-- The own list holds an item, the list of the other core of the quad's order another; a full list refuses. -/
def working : State := world.modDie 0 fun u => { u with work := [⟨0, 0, 11, 12⟩, ⟨1, 0, 21, 22⟩] }
def workless : State := world.modDie 0 fun u => { u with work := [⟨1, 0, 21, 22⟩] }

theorem wit_WorkItemsAreAppendedAndTaken : readyAt working 0 [0] 0 2 = true ∧ readyAt workless 0 [0] 0 2 = true ∧ Unheld working 0 ∧
    (working.colour (working.slot 0).jobcol).preempting = false ∧ (itemsOf working 0 0 0).length < 256 ∧ (working.die 0).work.length < 65536 ∧
    itemsOf working 0 0 (working.slot 0).jobcol = ⟨0, 0, 11, 12⟩ :: [] ∧ itemsOf workless 0 0 (workless.slot 0).jobcol = [] ∧
    itemsOf workless 0 1 0 = [] ++ [⟨1, 0, 21, 22⟩] ∧ (∀ o ∈ takeOrder 1 0, itemsOf world 0 o.1 (world.slot 0).jobcol = []) ∧
    ¬ (itemsOf (world.modDie 0 fun u => { u with work := .replicate 256 ⟨0, 0, 1, 2⟩ }) 0 0 0).length < 256 := by
  unfold Unheld; and_intros <;> decide +kernel

theorem wit_WorkItemsAreAppendedAndTaken_order :
    ∃ pre post r, takeOrder 1 0 = pre ++ (1, r) :: post ∧ pre.all fun e => decide (itemsOf workless 0 e.1 0 = []) :=
  ⟨(takeOrder 1 0).takeWhile fun e => e.1 ≠ 1, ((takeOrder 1 0).dropWhile fun e => e.1 ≠ 1).tail,
   (((takeOrder 1 0).dropWhile fun e => e.1 ≠ 1).headD (0, 0)).2, by decide +kernel⟩

theorem test_workLists :
    gives (.wltakeCore (.s 3) (.s 4)) working (fun t => holds 0 4 (t.slot 0) && decide ((t.slot 0).s[4] = 11) && decide ((t.slot 0).s[5] = 12)) = true ∧
    gives (.wltakeCore (.s 3) (.s 4)) world (fun t => holds 0x8000000000000008 4 (t.slot 0)) = true ∧
    gives (.wltakeQuad (.s 3) (.s 4)) workless (fun t => decide ((t.slot 0).s[5] = 22) && decide ((t.die 0).work = [])) = true ∧
    gives (.wlapp (.s 3) (.s 1) (.s 4)) (working.modSlot 0 fun sl => { sl with s := (sl.s.set 4 5).set 5 6 })
      (fun t => holds 0 4 (t.slot 0) && decide (itemsOf t 0 0 0 = [⟨0, 0, 11, 12⟩, ⟨0, 0, 5, 6⟩])) = true := by decide +kernel

/-- Two arrivals: barrier 0 of the CLUS pool after BALLOC and after one arrival. -/
noncomputable def allocated : State := after (.balloc 3 (.s 3) (.s 1)) (worldWith (s1 2))
noncomputable def arrivedOnce : State := after (.barr (.s 4) (.s 3)) allocated

/-- The barrier that s3 names, with a property; slot 1 waits for its round 0 to end. -/
def barrier3 (s : State) (p : Barrier → Bool) : Bool := readyAt s 0 [0] 0 2 &&
  match s.barrierOf 0 ((s.slot 0).read (.s 3)) with
  | some b => p b
  | none => false

noncomputable def waitedOn : State := arrivedOnce.modSlot 1 fun sl => { sl with phase := .blocked (.barrier 0x300 1 (.s 5)) }

theorem wit_BarriersCountTheirArrivals :
    readyAt (worldWith (s1 2)) 0 [0] 0 2 = true ∧ scopeHasPool 3 = true ∧ ((worldWith (s1 2)).slot 0).read (.s 1) = 2 ∧
    (AMap.get .reset ((worldWith (s1 2)).pool 3 0) 0).alloc = false ∧
    barrier3 allocated (fun b => decide (b.cnt + 1 ≠ b.n) && decide (b.cnt = 0) && decide ((b.phase - 0).toNat < 2 ^ 31) &&
      decide (2 ^ 31 ≤ (b.phase - 1).toNat) && !allocated.barrierWaited ((allocated.slot 0).read (.s 3))) = true ∧
    barrier3 arrivedOnce (fun b => decide (b.cnt + 1 = b.n) && decide (b.cnt ≠ 0)) = true ∧ Unheld allocated 0 ∧ (allocated.slot 0).phase = .running ∧
    barrier3 waitedOn (fun _ => waitedOn.barrierWaited ((waitedOn.slot 0).read (.s 3)) && decide ((waitedOn.slot 0).read (.s 3) = 0x300) &&
      decide ((waitedOn.release 0).slot 1 = waitedOn.slot 1)) = true ∧
    (world.barrierOf 0 ((world.slot 0).read (.s 1)) = none ∧ TrapsHigh world 0) := by
  and_intros <;> first | exact ⟨by decide +kernel, by decide +kernel, by unfold Unheld; decide +kernel⟩ | (unfold Unheld; decide +kernel) | decide +kernel

/-- A CORE pool with every barrier allocated. -/
theorem wit_BarriersCountTheirArrivals_full :
    let s := (List.range (poolSize 1)).foldl (fun s i => s.setBarrier 1 0 i ⟨true, 1, 0, 0, 0, 0, 1⟩) (worldWith (s1 1))
    (∀ i < poolSize 1, (AMap.get .reset (s.pool 1 0) i).alloc = true) ∧ s.cur = some 0 := by decide +kernel

theorem test_barriers :
    gives (.barr (.s 4) (.s 3)) arrivedOnce (fun t => match t.barrierOf 0 ((t.slot 0).read (.s 3)) with
      | some b => decide (b.cnt = 0) && decide (b.phase = 1) && decide ((t.slot 0).l = 1)
      | none => false) = true ∧
    gives (.bwait (.s 4) (.s 3) (.s 5)) allocated (fun t => decide ((t.slot 0).s[4] = 0)) = true ∧
    gives (.bfree (.s 4) (.s 3)) arrivedOnce (fun t => decide ((t.slot 0).l = 0x8000000000000003)) = true ∧
    gives (.bfree (.s 4) (.s 3)) allocated (fun t => decide ((t.slot 0).l = 0)) = true := by decide +kernel

/-- Arming for the CLUS set; the same detector, armed. -/
noncomputable def armed : State := after (.quiesArm (.s 3) (.s 1) (.s 2)) (worldWith (s12 0 0xC00))

theorem wit_QuiescenceDetectors : readyAt (worldWith (s12 0 0xC00)) 0 [0] 0 2 = true ∧ (worldWith (s12 0 0xC00)).module.detect = [] ∧
    (worldWith (s12 0 0xC00)).poolFree 0 1 = true ∧ 2 ≤ ((worldWith (s12 0 0xC00)).slot 0).cls.toNat ∧
    ((worldWith (s12 0 0xC00)).slot 0).read (.s 2) = 0xC00 ∧ readyAt armed 0 [0] 0 2 = true ∧
    armed.module.detect.any (fun x => decide (x.scope = 3) && decide (x.set = scopeSet 3 0) && decide (x.colour = 0)) = true := by
  and_intros <;> decide +kernel

/-- A range that ends at the end of its page; guards already entered: the own one, and a page-end one. -/
noncomputable def guarding : State := after (.rgsetWr (.s 3) (.s 1) (.s 2)) (worldWith (s12 0x2FFF0 16))

theorem wit_RangeGuardsAreSetAndCleared : readyAt (worldWith (s12 0x2FFF0 16)) 0 [0] 0 2 = true ∧ ((worldWith (s12 0x2FFF0 16)).core 0).guards = [] ∧
    okAnd ((worldWith (s12 0x2FFF0 16)).translate 0 0 2 .load 0x2FFF0) (fun x => decide (0x2FFF0 % 2 ^ x.bits + 16 ≤ 2 ^ x.bits) &&
      decide ((walked (worldWith (s12 0x2FFF0 16)) 0 x).stuck = none)) = true ∧
    readyAt guarding 0 [0] 0 2 = true ∧ (guarding.core 0).guards.any (fun g => decide (g.idx = 0) && decide (g.cmd = none) && decide (g.core = 0) &&
      decide (g.ctxid = (guarding.slot 0).ctxid)) = true := by and_intros <;> decide +kernel
/-! ### Witnesses: engine commands -/

/-- A handle register (R97): base, format, scale layout, rows, columns, row stride. -/
def handleAt (base fmt rows cols rstride : Nat) : BitVec 256 :=
  BitVec.ofNat 256 (base + fmt * 2 ^ 52 + 2 ^ 63 + rows * 2 ^ 64 + cols * 2 ^ 80 + rstride * 2 ^ 96)

def handles : Vector (BitVec 256) 32 :=
  [(1, handleAt 0x60000 13 32 32 384), (2, handleAt 0x20000 2 32 192 384), (3, handleAt 0x50000 2 32 192 1024), (4, handleAt 0x80000 2 2 32 64),
    (5, handleAt 0x90000 2 2 32 64), (6, handleAt 0x20000 2 2 32 64), (7, handleAt 0x80000 15 1 64 64), (8, handleAt 0x90000 15 1 64 64),
    (9, handleAt 0x20000 15 1 4096 4096), (10, handleAt 0x200000 2 32 1 4)].foldl (fun t e => t.set (ix 32 e.1) e.2) (.replicate 32 0)

/-- `world` with two more pages of the own scratchpad, at 0x80000 (offset 0x10000) and 0x90000 (offset 0x20000), words
in the scratchpad, and t1 a tile, t2 an A operand, t3 a B operand, t4 to t6 vectors, t7 to t9 blocks of bytes, t10
rows of compute-capable memory. -/
def engines (l : List (Nat × Nat)) : State :=
  let s := (world.storeLE (loadBase + 0x92040) 8 0xF000010037).storeLE (loadBase + 0x92048) 8 0xF000020037
  let s := l.foldl (fun s e => s.storeLE (pad + e.1) 8 e.2) s
  s.modSlot 0 fun sl => { sl with t := handles }

/-- What `Goes` asks of slot 0, and that its activation runs. -/
def goesAt (u : State) (bead : Option (Fin 4)) (ranges : Nat) (room : Bool) : Bool :=
  (bead.all fun b => decide ((u.slot 0).beads[b] ≠ 63)) && decide (ranges ≤ (u.freeGuards 0).length) && room &&
  !u.heldStore 0 (u.slot 0).ctxid && decide (u.stuck = none) && decide ((u.slot 0).phase = .running)

/-- MMA on tile 0, and the planes that its handles translate to. -/
theorem wit_MatrixInstructionsAreIssued : let s := engines []
    matrixOf (.mma 1 2 3 0) = some (0, [8], 0x40, 0, 0, [(1, .tile, true), (2, .a, false), (3, .b, false)]) ∧ Ready s 0 [8] 0 2 ∧
    (let sl := s.slot 0
     let hs := [(1, Role.tile, true), (2, .a, false), (3, .b, false)].map fun o => (sl.handle o.1, o.2)
     decide (sl.cls ≠ 1) && decide (s.missing (hs.map (·.1)) = none) && hs.all (fun h => h.1.ok false) &&
     hs.all (fun h => h.2.1.ok (h.1.plane (h.1.base.toNat % 0x10000) 0)) && crossOk 0x40 (hs.map fun h => h.1.plane (h.1.base.toNat % 0x10000) 0) &&
     okAnd (s.xlateOperands 0 hs) (fun e => (hs.zip e.2).all (fun y => decide (y.1.2.1 ≠ .tile) ||
         (decide (y.1.1.anchor = e.1.futureAnchor 0 (ix 4 ((y.2.eoff - 0xC0000) / 0x3000))) && decide ((y.2.eoff - 0xC0000) / 0x3000 = 0) &&
          decide (y.1.1.anchor = 0))) &&
       let others := ((hs.zip e.2).filter fun e => e.1.2.1 ≠ .tile).map fun e => e.2.words
       let w := sl.mxuWords 0 0x40 0 0 0 0 (others.getD 0 (0, 0)) (others.getD 1 (0, 0))
       decide (e.1.slot 0 = sl) && goesAt e.1 (some 3) (mxuRanges w).length (decide ((e.1.core 0).mxuIn.length < 8)))) = true :=
  ⟨rfl, ready_of (by decide +kernel), by decide +kernel⟩

/-- MPOST of a command of OPC 0x41 with a bead reply. -/
theorem wit_MatrixInstructionsAreIssued_posted : let s := engines [(0x10000, 0x41)]
    Ready s 0 [8] 0 3 ∧ ∃ u w, s.readCommand 0 ((s.slot 0).handle 7) = .ok (u, w) ∧
      (let v := (s.slot 0).ownMxu 0 w
       let r := mxuReplyTo 0 v
       decide (r.rkind = 0) && decide (u.slot 0 = s.slot 0) &&
       goesAt u (some r.bead) (mxuRanges v).length (decide ((u.core 0).mxuIn.length < 8))) = true :=
  ⟨ready_of (by decide +kernel), command_of (by decide +kernel)⟩

theorem wit_VectorInstructionsAreIssued : let s := engines []
    vectorOf (.vmapAdd 4 5 6 0 0) = some (0, [32], 0x48, 0, 0, 4, 5, some 6) ∧ Ready s 0 [32] 0 2 ∧
    (let sl := s.slot 0
     let d := sl.handle 4
     let a := sl.handle 5
     let b := sl.handle 6
     decide (sl.cls ≠ 1) && decide (s.missing [d, a, b] = none) && d.ok false && a.ok false && b.ok false &&
     vecRules 0x48 0 0 d.virtPlane a.virtPlane b.virtPlane &&
     okAnd (s.xlateVector 0 [(d, true), (a, false), (b, false)]) (fun e =>
       let p := (e.2.getD 2 (a.plane 0 0)).vec
       let w := sl.vecWords 0 0x48 0 0 (e.2.getD 0 (d.plane 0 0)) (e.2.getD 1 (a.plane 0 0)) (BitVec.ofNat 64 p, BitVec.ofNat 64 (p / 2 ^ 64))
       decide (e.1.slot 0 = sl) && goesAt e.1 (some 2) (vecRanges w).length (decide ((e.1.core 0).vecIn.length < 8)))) = true :=
  ⟨rfl, ready_of (by decide +kernel), by decide +kernel⟩

/-- LPOST.cp of a fill of 8 bytes at 0x90000 that the packet at 0x20000 and the shape record at 0x80000 describe. -/
theorem wit_LadleInstructions_posted : let s := engines [(0, 0x11), (24, 0x90000), (40, 0x80000), (0x10008, 2 ^ 32 + 8)]
    (Ready s 0 [48] 0 3 ∧ (s.slot 0).cls ≠ 1 ∧ (s.slot 0).phase = .running) ∧ ∃ u w, s.readCommand 0 ((s.slot 0).handle 9) = .ok (u, w) ∧
      (!u.heldStore 0 (u.slot 0).ctxid && okAnd ((u.release 0).plan 0 0 0 2 ((s.slot 0).ownPacket 0 true w)) (fun e =>
        let y := e.1.openPages 0 0 e.2
        decide (y.stuck = none) &&
        decide (y.ladleWait 0 0 ((s.slot 0).ownPacket 0 true w) (guardNeeds (e.2.guards 0 0)) = none))) = true :=
  ⟨⟨ready_of (by decide +kernel), by decide +kernel⟩, command_of (by decide +kernel)⟩

/-- LPOST.pkt of a packet without footprints whose reply is a memory word. -/
theorem wit_LadleInstructions_pkt : let s := engines [(0, 0x4013)]
    ∃ u w, s.readCommand 0 ((s.slot 0).handle 9) = .ok (u, w) ∧
      (let v := (s.slot 0).ownPacket 0 false w
       decide ((ladReplyTo v).rkind = 1) && okAnd ((u.release 0).plan 0 0 0 2 v) fun e => let y := e.1.openPages 0 0 e.2
         decide (y.stuck = none) && decide (y.ladleWait 0 3 v (guardNeeds (e.2.guards 0 0)) = none)) = true :=
  command_of (by decide +kernel)

theorem wit_LadleInstructions_shaped : let s := engines []
    Ready s 0 [48, 2] 0 3 ∧ Owns s .store .store (fun sl => (sl.handle 7).base) 64 64 ∧ s.missing [(s.slot 0).handle 2] = none ∧
    ((s.slot 0).handle 7).val = true ∧ ((s.slot 0).handle 2).ok false = true ∧ (s.slot 0).streamDims 0 = [] :=
  ⟨ready_of (by decide +kernel), owns_of (by decide +kernel), by and_intros <;> decide +kernel⟩

/-- A bind record at 0x20000 of a control block at 0x80000 and a ring at 0x90000 of 4 records, RDIDX 1. -/
def binding : State := (engines [(0, 0x80000), (8, 0x90000), (0x10000, 5), (0x10008, 1), (0x10010, 4), (0x20040, 9)]).modSlot 0 (s1 0x20000)

theorem wit_LadleInstructions_bound :
    (Ready binding 0 [48] 0 2 ∧ ((binding.slot 0).asid, (binding.slot 0).cls) = (0, 2) ∧ bindFormed [0x80000, 0x90000, 0, 0] = true) ∧
    ∃ u v x, (binding.release 0).ordinaryWords 0 0 2 0x20000 4 = .ok (u, [0x80000, 0x90000, 0, 0]) ∧
      u.ordinaryWords 0 0 2 0x80000 3 = .ok (v, [5, 1, 4]) ∧ v.ordinaryWords 0 0 2 0x90040 1 = .ok (x, [9]) ∧ (x.queue 0 0).bound = false ∧
      ((x.modQueue 0 0 fun _ => bindQueue [0x80000, 0x90000, 0, 0] 4 1 0 2 0).pollQueue 0 0).stuck = none := by
  refine ⟨⟨ready_of (by decide +kernel), by and_intros <;> decide +kernel⟩, ?_⟩
  obtain ⟨u, hu, hp⟩ := record_of (s := binding.release 0) (va := 0x20000) (ws := [0x80000, 0x90000, 0, 0])
    (p := fun u => recordAt u 0x80000 [5, 1, 4] fun v => recordAt v 0x90040 [9] fun x => !(x.queue 0 0).bound &&
      let y := x.modQueue 0 0 fun _ => bindQueue [0x80000, 0x90000, 0, 0] 4 1 0 2 0
      y.calm && decide (y.stuck = none)) (by decide +kernel)
  obtain ⟨v, hv, hp⟩ := record_of hp
  obtain ⟨x, hx, hp⟩ := record_of hp
  rw [Bool.and_eq_true, Bool.not_eq_true'] at hp
  exact ⟨u, v, x, hu, hv, hx, hp.1, poll_stuck hp.2 0 0⟩

/-- A queue that is not bound, and a bound one of the own address space that no packet comes from. -/
theorem wit_LadleInstructions_queue : let s := (worldWith (s1 3)).modQueue 0 3 fun b => { b with bound := true }
    Ready s 0 [48] 0 2 ∧ (s.pollQueue 0 3).stuck = none ∧ (s.queue 0 4).bound = false ∧ (s.queue 0 3).bound = true ∧
    (s.queue 0 3).asid = (s.slot 0).asid ∧ ∀ ch < 4, (s.chan 0 ch).cur = none :=
  ⟨ready_of (by decide +kernel), poll_stuck (by decide +kernel) 0 3, by and_intros <;> decide +kernel⟩

/-- KPLAN: the two handles; the control inbox has room too. -/
theorem wit_RunnerInstructionsAreIssued : let s := engines []
    Ready s 0 [49] 0 3 ∧ (s.slot 0).cls ≠ 1 ∧ s.missing [(s.slot 0).handle 7, (s.slot 0).handle 8] = none ∧
    ((s.slot 0).handle 7).ok false = true ∧ ((s.slot 0).handle 8).ok false = true ∧
    okAnd (s.runTarget 0 ((s.slot 0).handle 7) 64) (fun u => decide (u.slot 0 = s.slot 0) && goesAt u none 0 (decide ((u.runInbox 0 0).length < 4)) &&
      okAnd (u.runSource 0 ((s.slot 0).handle 8)) fun v => decide (v.slot 0 = s.slot 0) && goesAt v (some 2) 0 (decide ((v.runInbox 0 4).length < 4))) = true :=
  ⟨ready_of (by decide +kernel), by and_intros <;> decide +kernel⟩

/-- A query of one row over 32 records: its block at 0x20000, keys and values on one compute-capable page. -/
def querying : State := engines [(0, 2 ^ 37)]

theorem wit_ReckonerInstructions :
    let d := (querying.slot 0).handle 9
    let a := (querying.slot 0).handle 10
    (Ready querying 0 [50] 0 3 ∧ (querying.slot 0).cls ≠ 1 ∧ querying.missing [d, a, a] = none ∧ d.ok false = true ∧ a.ok false = true ∧
      queryOk d a a = true ∧ a.inPage 32 = true) ∧
    ∃ u, (querying.release 0).ordinaryWords 0 0 2 0x20000 9 = .ok (u, 2 ^ 37 :: .replicate 8 0) ∧
    okAnd (u.xlateRange 0 .atomic 1 64 d.base (queryBlock a.cols a.cols)) (fun e =>
      okAnd (e.1.ccPage 0 .load a.base) fun f => [true, false].all fun b => okAnd (pageB b f.1 .load a.base) fun g =>
        decide (g.2.pa = f.2.pa) && goesAt g.1 (some 0) 2 (decide ((g.1.bankQueue (setOf f.2.pa)).length < 8))) = true := by
  have hb : ((querying.slot 0).handle 10).base = 0x200000 := by decide +kernel
  refine ⟨⟨ready_of (by decide +kernel), by and_intros <;> decide +kernel⟩, ?_⟩
  obtain ⟨u, hu, hp⟩ := record_of (s := querying.release 0) (va := 0x20000) (ws := 2 ^ 37 :: .replicate 8 0)
    (p := fun u => [true, false].all fun b => okAnd (rangeB b u .atomic 1 64 0x20000 (queryBlock 1 1)) fun e =>
      okAnd (e.1.ccPage 0 .load 0x200000) fun f => [true, false].all fun b => okAnd (pageB b f.1 .load 0x200000) fun g =>
        decide (g.2.pa = f.2.pa) && goesAt g.1 (some 0) 2 (decide ((g.1.bankQueue (setOf f.2.pa)).length < 8))) (by decide +kernel)
  refine ⟨u, hu, ?_⟩
  rw [rangeB_eq, hb]
  exact either (p := fun b => okAnd (rangeB b u .atomic 1 64 0x20000 (queryBlock 1 1)) _)
    (by simpa only [List.all_cons, List.all_nil, Bool.and_true] using hp) (Config.tlbKeeps u.tick)

/-- QAPND: the rows of t10, a source of 4 bytes. -/
theorem wit_ReckonerInstructions_appended : let s := engines []
    Ready s 0 [50] 0 3 ∧
    okAnd (s.ccPage 0 .store ((s.slot 0).handle 10).base) (fun e => ((s.slot 0).handle 10).rowsOk && ((s.slot 0).handle 10).inPage 0 &&
      goesAt e.1 (some 1) 0 (decide ((e.1.bankQueue (setOf e.2.pa)).length < 8)) &&
      okAnd (e.1.xlateRange 0 .load 1 64 0x80000 4) fun f => goesAt f.1 (some 1) 2 (decide ((f.1.bankQueue (setOf e.2.pa)).length < 8))) = true :=
  ⟨ready_of (by decide +kernel), by decide +kernel⟩

/-- QSTAT: its requests, which the controller can answer. -/
noncomputable def asking (i : Instr) : State := after i (worldWith (s1 0x200000))

theorem wit_ReckonerInstructions_status : Ready (worldWith (s1 0x200000)) 0 [50] 0 2 ∧
    okAnd ((worldWith (s1 0x200000)).ccPage 0 .load 0x200000) (fun u => decide (u.1.stuck = none)) = true ∧
    ([(.qstatRows (.s 3) (.s 1), .rows), (.qstatUnit (.s 3) (.s 1), .unit)] : List (Instr × MemOp)).all (fun e => let s := asking e.1
      decide (s.stuck = none) && request0 s fun r => decide (r.op = e.2) && decide (r.cont = some (.value (.s 3))) &&
        decide (s.performable 0 false = some r) && !isRegister r.key) = true :=
  ⟨ready_of (by decide +kernel), by decide +kernel, by decide +kernel⟩
/-! ### Witnesses: system instructions -/

/-- Class 2 may touch every number; CTXID 9 is free; below class 2 the numbers from 0x800 on are denied. -/
theorem wit_ControlRegisters : Ready world 0 [0] 0 1 ∧ 2 ≤ (world.slot 0).cls.toNat ∧ (world.slot 0).phase = .running ∧ Unheld world 0 ∧
    world.ctx 0 (((worldWith (s1 9)).slot 0).read (.s 1) |>.setWidth 32) = none ∧
    (let s := worldWith fun sl => { sl with cls := 1 }
     readyAt s 0 [0] 0 1 = true ∧ (s.slot 0).status = .live ∧ (s.slot 0).cls.toNat < 2 ∧ Unheld s 0) :=
  ⟨wit_ready _ _ (by simp) (by omega), by unfold Unheld; decide +kernel⟩

theorem wit_ControlRegisters_named (v : Word) : ((0x000, (world.slot 0).flags.setWidth 64) : BitVec 12 × Word) ∈ csrValue world 0 ∧
    (0x000, fun sl => { sl with flags := sl.flags &&& v.setWidth 7 }) ∈ csrPut v := ⟨by simp [csrValue], by simp [csrPut]⟩

/-- R93: FLAGS keeps only the bits written as 1; a read gives the register; JOBCOL takes six bits. -/
theorem test_csr :
    turns (.csrWr (.s 1) 0) (fun sl => s1 5 { sl with flags := 3 }) (fun sl => decide (sl.flags = 1)) = true ∧
    turns (.csrRd (.s 3) 0x802) (fun sl => { sl with jobcol := 9 }) (holds 9 4) = true ∧
    turns (.csrSwp (.s 1) 0x802) (fun sl => s1 0x45 { sl with jobcol := 9 }) (fun sl => decide (sl.jobcol = 5) && decide (sl.s[1] = 9)) = true ∧
    turns (.csrSet (.s 1) 0x802) (fun sl => s1 6 { sl with jobcol := 9 }) (fun sl => decide (sl.jobcol = 15)) = true ∧
    turns (.csrClr (.s 1) 0x802) (fun sl => s1 8 { sl with jobcol := 9 }) (fun sl => decide (sl.jobcol = 1)) = true := by decide +kernel

/-- No launch and a launch; an emulation routine; a streaming colour and one that is not. -/
def member : State := launched.modSlot 0 fun sl => { sl with launch := some ⟨0, 1, 0⟩ }
def streaming : State := (worldWith (s1 0x40)).modColour 0 fun c => { c with strm := true }

theorem wit_SystemCalls : Ready world 0 [0] 0 2 ∧ (world.slot 0).phase = .running ∧ (world.slot 0).launch = none ∧ TrapsHigh world 0 ∧
    (world.slot 0).emu.getLsbD 0 = false ∧ Ready member 0 [0] 0 2 ∧ (member.launchOf 0 1).isSome = true ∧ Unheld member 0 ∧
    ((worldWith fun sl => { sl with emu := 1 }).slot 0).emu.getLsbD 0 = true ∧ ((streaming.slot 0).read (.s 1)).toNat % 64 = 0 ∧
    (streaming.colour 0).strm = true ∧ (world.colour 0).strm = false ∧ (world.slot 0).jobcol = 0 ∧ Unheld streaming 0 := by
  and_intros <;> first | exact ready_of (by decide +kernel) |
    exact ⟨by decide +kernel, by decide +kernel, by unfold Unheld; decide +kernel⟩ | (unfold Unheld; decide +kernel) | decide +kernel

/-- R221, R218, R223. -/
theorem test_sys :
    gives (.sysCommit (.s 3)) member (fun t => (t.launchOf 0 1).any Launch.committed && holds 0 4 (t.slot 0)) = true ∧
    turns .sysEret (fun sl => { sl with emu := 0x30001, epc := 0x20000, einst := 2 }) (fun sl => decide (sl.pc = 0x20002) && decide (sl.emu = 0x30000)) = true ∧
    gives (.sysCkpt (.s 1)) streaming (fun t => decide ((t.colour 0).restart = 0x40) && decide ((t.colour 0).epoch = 1)) = true := by
  decide +kernel

/-- A TLB entry of the own address space, alone; with a load that waits for its reply; with that operation finished. -/
def cached : State := world.modCore 0 fun c => { c with tlb := [⟨0, 3, 16, 0x37⟩] }
noncomputable def inUse : State := { loadingHbm with mover := .core 0 }.modSlot 0 (fun sl => { sl with phase := .running }) |>.modCore 0 fun c =>
  { c with running := some 0 }
noncomputable def purging : State := after (.tlbiAll (.s 3)) inUse

theorem wit_TranslationInvalidation : Ready cached 0 [0] 0 4 ∧ 2 ≤ (cached.slot 0).cls.toNat ∧ (cached.slot 0).phase = .running ∧ Unheld cached 0 ∧
    cached.supOf 0 = none ∧ (let u := (cached.release 0).rewalk ⟨none, 0, 2 ^ 52⟩
      u.net.reqs = [] ∧ u.translated = [] ∧ u.postsThrough ⟨none, 0, 2 ^ 52⟩ = []) ∧
    Ready inUse 0 [0] 0 4 ∧ inUse.supOf 0 = none ∧ Unheld inUse 0 ∧
    (let u := (inUse.release 0).rewalk ⟨none, 0, 2 ^ 52⟩; u.net.reqs.filter (Purge.covers ⟨none, 0, 2 ^ 52⟩ u) ≠ []) := by
  and_intros <;> first | exact ready_of (by decide +kernel) | (unfold Unheld; decide +kernel) | decide +kernel

/-- The operation waits for the request, which goes; its result then ends the wait. -/
def drained : State := { world with net := { world.net with sups := [⟨7, 0, 1, .tlbi [(5, 0)], none⟩] } }
def resulting : State := { world with net := { world.net with sups := [⟨7, 0, 1, .tlbi [(5, 0)], some 0⟩] } }

theorem wit_TranslationInvalidation_ended : (drained.ctx 0 1).isSome = true ∧ drained.net.reqs = [] ∧ drained.translated = [] ∧
    drained.net.vias = [] ∧ drained.net.sups[0]? = some ⟨7, 0, 1, .tlbi [(5, 0)], none⟩ ∧
    (∀ u ∈ drained.net.sups, u.id = 7 → u.core = 0 ∧ u.ctxid = 1) ∧
    readyAt resulting 0 [0] 0 4 = true ∧ (resulting.supOf 0).any (fun x => decide (x.result = some 0)) = true := by
  and_intros <;> decide +kernel

theorem test_tlbi :
    gives (.tlbiRange (.s 3) (.s 1) (.s 2)) (cached.modSlot 0 (s12 0x30000 0x10000)) (fun t => decide ((t.core 0).tlb = []) && holds 0 4 (t.slot 0)) = true ∧
    gives (.tlbiRange (.s 3) (.s 1) (.s 2)) (cached.modSlot 0 (s12 0x40000 0x10000)) (fun t => decide ((t.core 0).tlb ≠ [])) = true ∧
    gives (.tlbiAsid (.s 3) (.s 2)) (cached.modSlot 0 (s12 0 1)) (fun t => decide ((t.core 0).tlb ≠ [])) = true := by decide +kernel

/-- Slot 1 holds an actor whose context is 2, with a save area at 0x18000 in HBM; context 5 is saved there. -/
def twoActors : State := ((worldWith (s12 0x1000 0x18000)).modSlot 1 fun sl => { sl with status := .live, ctxid := 2 }).modCore 0 fun c =>
  { c with ctxs := c.ctxs ++ [⟨2, .slot 1, [], none, false, [], []⟩] }

def frozenActor (p : Phase) (skip : Word) : State := (twoActors.modSlot 1 fun sl => { sl with frozen := true, phase := p }).modSlot 0 (s12 0x1000 skip)

theorem wit_ContextOperations : Ready twoActors 0 [0] 0 4 ∧ 2 ≤ (twoActors.slot 0).cls.toNat ∧ (twoActors.slot 0).phase = .running ∧ (twoActors.slot 0).status = .live ∧
    slotKey (((twoActors.slot 0).read (.s 1)).toNat % 4096) (((twoActors.slot 0).read (.s 1)).toNat / 4096 % 8) = 1 ∧
    (twoActors.slot 1).status = .live ∧ twoActors.supOf 0 = none ∧ (twoActors.slot 1).cls ≠ 3 ∧ (twoActors.slot 1).priv = 0 ∧
    (twoActors.core 0).ctxs.length < 64 ∧ twoActors.areaFault 0 0x18000 (areaSize 0) .store .store = none ∧ (twoActors.slot 2).status ≠ .live ∧
    ((frozenActor .idle 0).slot 1).frozen = true ∧ ((frozenActor .ready 1).slot 1).frozen = true ∧ ((frozenActor .ready 1).slot 1).phase ≠ .idle ∧
    (twoActors.removeActor 1 (some 0x212)).stuck = none ∧ twoActors.savedCtx 0x18000 0 = none :=
  ⟨ready_of (by decide +kernel), by and_intros <;> decide +kernel⟩

/-- A save under way: the target's save may begin. -/
def saving : State := { twoActors with net := { twoActors.net with sups := [⟨7, 0, 1, .evict 0 1 0x18000 0, none⟩] } }

/-- A saved actor of class 0 with the object of `objects`. -/
def savedActor : State :=
  [(0, 0x1564153), (8, 0x1000000), (16, 7), (0x40, 0x20001)].foldl (fun s e => s.storeLE (loadBase + 0xA8000 + e.1) 8 e.2)
    (((objects [] (s12 0 0x18000)).modCore 0 fun c => { c with ctxs := c.ctxs ++ [⟨5, .saved 0x18000 0, [], none, false, [], []⟩] }))

/-- Where no word is poisoned none of an area is. -/
theorem no_poison {s : State} (h : s.poison = []) (c : Nat) (area : Word) (asid : BitVec 16) (off n : Nat) : s.areaPoison c area asid off n = none := by
  unfold State.areaPoison
  rw [List.findSome?_eq_none_iff]
  intro i _
  dsimp only
  split
  · simp [State.poisoned, h]
  · rfl

theorem wit_ContextOperations_saved : saving.net.sups[0]? = some ⟨7, 0, 1, .evict 0 1 0x18000 0, none⟩ ∧ (saving.slot 1).status = .live ∧
    saving.settled 1 = true ∧ (saving.evict 1 0x18000 0).stuck = none :=
  ⟨by decide +kernel, by decide +kernel, by decide +kernel, (State.evict_stuck (by decide +kernel) _ _).trans (by decide +kernel)⟩

/-- The saved actor of context 5, to be removed and to be restored; its ring holds nothing. -/
theorem wit_ContextOperations_restored : Ready savedActor 0 [0] 0 4 ∧
    (savedActor.savedCtx 0x18000 0).any (fun e => decide ((savedActor.removeEvicted e.1 e.2 (some 0x212)).stuck = none)) = true ∧
    let u := savedActor.release 0
    let u₁ := u.areaOpen 0 0x18000 0 0x2A80
    let size := areaSize (u₁.areaWord 0 0x18000 0 0x038)
    let u₂ := u₁.areaOpen 0 0x18000 0 size
    u.areaFault 0 0x18000 0x2A80 .load .load = none ∧ u₁.areaPoison 0 0x18000 0 0 (0x2A80 / 8) = none ∧
    u₁.areaFault 0 0x18000 size .load .load = none ∧
    okAnd (u₂.restoreCheck 0 0x18000 0) (fun e => decide (slotKey 0 e.1 ≠ 0) && decide (e.2.id = 5) &&
      decide ((u₂.restore 0 e.1 0x18000 0 e.2).stuck = none) &&
      decide ((u₂.copyPriv 0 0x18000 0 (u₂.areaSlot 0 0x18000 0 e.2).priv false).awayRing 0 e.2 0x18000 0 = [])) = true :=
  ⟨ready_of (by decide +kernel), by decide +kernel, by decide +kernel, no_poison (by decide +kernel) _ _ _ _ _, by decide +kernel,
   by decide +kernel⟩

/-- A pre-emption of the DIE set around core 0, of a colour with one actor; then of nothing in flight. -/
def preempting : State := (twoActors.modSlot 0 (s1 0x405)).modSlot 1 fun sl => { sl with jobcol := 5 }

theorem wit_PreemptionRemovesAColour : Ready preempting 0 [0] 0 4 ∧ 2 ≤ (preempting.slot 0).cls.toNat ∧ preempting.supOf 0 = none ∧
    ((preempting.slot 0).read (.s 1)).toNat / 2 ^ 8 % 8 = 4 ∧ (preempting.colour 5).preempting = false ∧ preempting.committedIn 4 0 5 = false ∧
    (preempting.preempt 4 0 5).stuck = none ∧
    (preempting.slot 0).jobcol ≠ 5 ∧ preempting.victims 4 0 5 = [1] ∧ preempting.restarts 5 0 = false ∧ preempting.drainedOf 4 0 5 [] = true ∧ (preempting.ctx 0 1).isSome = true ∧
    ((preempting.modColour 5 fun c => { c with preempting := true }).colour 5).preempting = true :=
  ⟨ready_of (by decide +kernel), by and_intros <;> decide +kernel⟩

/-- R222: the actor of the colour is removed and the issuer waits. -/
theorem test_preempt : gives (.ctxPreempt (.s 3) (.s 1)) preempting (fun t => decide ((t.slot 1).status ≠ .live) && (t.colour 5).preempting &&
    decide ((t.core 0).running = none)) = true := by decide +kernel

/-! ### Witnesses: messages, scheduling, launches, queues and detectors -/

/-- `world` with a handler for type 9 in slot 0, mailbox 0 configured for it, and a message of that type on its way. -/
def mailed (claimed vc : Bool) (m : Mailbox → Mailbox) : State :=
  let s := (worldWith fun sl => { sl with resv := [5], mb := sl.mb.set 0 (m { sl.mb[0] with conf := true, quota := 1, mask := 0x200 }) }).modCore 0
    fun c => { c with vect := c.vect.set 9 0x8800000000020000 }
  { s with net := { s.net with flights := [⟨0, ⟨if vc then 0x409 else 0x009, 0x5000000000000, .replicate 6 0⟩, 0, 1, .nothing, claimed, 0, s.ns, none, none⟩] } }

def theFlight (s : State) : Flight := s.net.flights.headD ⟨0, ⟨0, 0, .replicate 6 0⟩, 0, 0, .nothing, false, 0, 0, none, none⟩

theorem arrives_of {s : State} {f : Flight} (h : (decide (s.net.flights[0]? = some f) && decide (f.due = none)) = true) : Arrives s 0 f := by
  simp only [Bool.and_eq_true, decide_eq_true_eq] at h
  exact ⟨h.1, h.2, by simp⟩

theorem receives_mailed (claimed vc : Bool) : Arrives (mailed claimed vc id) 0 (theFlight (mailed claimed vc id)) ∧
    Receives (mailed claimed vc id) (theFlight (mailed claimed vc id)) 0 := by
  cases claimed <;> cases vc <;> exact ⟨arrives_of (by decide +kernel), by constructor <;> decide +kernel⟩

/-- What `ToldInSlot` asks, as a check of the sender's context. -/
theorem told_of {s : State} {f : Flight} (h : ((match f.report with | .post _ => false | _ => true) &&
    match s.ctx f.core f.ctxid with | some x => (match x.loc with | .saved _ _ => false | _ => true) | none => true) = true) : ToldInSlot s f := by
  simp only [Bool.and_eq_true] at h
  constructor
  · intro id hr; simp [hr] at h
  · intro x hx area asid hl; simp [hx, hl] at h

/-- The three ways in, and the end of an ordered mailbox's window of 16 keys. -/
theorem wit_MessagesAreDelivered_accepted :
    Accepts (mailed false false id) (theFlight (mailed false false id)) 0 .quota ∧ Accepts (mailed true false id) (theFlight (mailed true false id)) 0 .claimed ∧
    Accepts (mailed false true id) (theFlight (mailed false true id)) 0 (.reserved 5) ∧
    Accepts (mailed false false fun m => { m with ord := true, nextKey := 0xFFFFFFF1 })
      (theFlight (mailed false false fun m => { m with ord := true, nextKey := 0xFFFFFFF1 })) 0 .quota := by
  have h : ((mailed false false id).slot 0).rings = [] := by decide +kernel
  refine ⟨⟨by decide +kernel, by decide +kernel, by unfold quotaUsed; decide +kernel, ?_⟩, by unfold Accepts; decide +kernel,
    by unfold Accepts; decide +kernel, by unfold Accepts quotaUsed; decide +kernel⟩
  rw [if_neg (by decide +kernel)]
  simp [h]

/-- The message's report and refusals, and slot 0 as the one that waits for the acceptance of its word-7 store. -/
def reported (r : Report) (tries : Nat) (s : State) : State :=
  s.modNet fun q => { q with flights := q.flights.map fun f => { f with report := r, tries := tries } }
def postedBy (tries : Nat) (s : State) : State :=
  (reported (.post 3) tries s).modSlot 0 fun sl => { sl with phase := .blocked (.post 3 0x40038 4 1) }

/-- A save area at 0x20000 for an evicted actor of type 9 with a ring of 4 messages at 0x24000, of which it holds `n`. -/
def ringed (n : Nat) (s : State) : State :=
  [(0x20, 0x24000), (0x28, 4), (0x30, n)].foldl (fun s e => s.storeLE (pad + e.1) 4 e.2) (s.modCore 0 fun c =>
    { c with vect := c.vect.set 9 0x8880000000020000, ctxs := c.ctxs ++ [⟨7, .saved 0x20000 0, [9], none, false, [], []⟩] })

/-- Mailbox 0 ordered, with a next key. -/
def ordered (key : BitVec 32) (m : Mailbox) : Mailbox := { m with ord := true, nextKey := key }

def holding (m : Mailbox) : Mailbox := { m with held := [⟨⟨9, 0, .replicate 6 0⟩, 0, .quota⟩] }

/-- A full mailbox; a message that no valid entry takes; a reply under no tag of the slot. -/
def crowded : State := mailed false false holding
def unclaimed : State := (mailed false false id).modCore 0 fun c => { c with vect := c.vect.set 9 0 }
def untagged : State := (mailed false true id).modSlot 0 fun sl => { sl with resv := [] }

/-- The message's storing instruction waits for it, in slot 0. -/
def PostsHigh (s : State) : Prop := (theFlight s).report = .post 3 ∧ s.postWaiter 3 = some (0, 0x40038, 4, 1) ∧ TrapsHigh s 0 ∧ (s.slot 0).budget = 0

theorem postHigh_of {s : State} (h : PostsHigh s) : PostHigh s (theFlight s) := ⟨3, 0, 0x40038, 4, 1, h.1, h.2.1, h.2.2.1, .inl h.2.2.2⟩

theorem PostsHigh.told {s : State} (h : PostsHigh s) : ToldHere s (theFlight s) := .inl ⟨3, h.1⟩

/-- An acceptance that a storing instruction waits for. -/
theorem wit_MessagesAreDelivered_posted : Arrives (postedBy 0 (mailed false false id)) 0 (theFlight (postedBy 0 (mailed false false id))) ∧
    Receives (postedBy 0 (mailed false false id)) (theFlight (postedBy 0 (mailed false false id))) 0 ∧
    Accepts (postedBy 0 (mailed false false id)) (theFlight (postedBy 0 (mailed false false id))) 0 .quota ∧
    PostsHigh (postedBy 0 (mailed false false id)) := by
  unfold Accepts quotaUsed PostsHigh
  have h : ((postedBy 0 (mailed false false id)).slot 0).rings = [] := by decide +kernel
  exact ⟨arrives_of (by decide +kernel), by constructor <;> decide +kernel, ⟨by decide +kernel, by decide +kernel, by decide +kernel, by
    rw [if_neg (by decide +kernel)]; simp [h]⟩, by decide +kernel, by decide +kernel, ⟨by decide +kernel, by decide +kernel, by unfold Unheld; decide +kernel⟩, by decide +kernel⟩

/-- The last place of a ring. -/
theorem wit_MessagesAreDelivered_overflowed :
    let s := ringed 3 (mailed false false id)
    let f := theFlight s
    let u := s.modNet fun q => { q with flights := q.flights.eraseIdx 0 }
    Arrives s 0 f ∧ s.stuck = none ∧ Overflows s f 0x20000 0 ∧ s.ringRoom f.dst 0x20000 0 = true ∧ ToldInSlot s f ∧ f.report = .nothing ∧
    (u.ringAppend f.dst 0x20000 0 f.msg).stuck = none ∧ s.areaLoad f.dst 0x20000 0 0x030 4 = 3 ∧ s.areaLoad f.dst 0x20000 0 0x020 8 = 0x24000 ∧
    s.areaLoad f.dst 0x20000 0 0x028 4 = 4 ∧ s.placeOf f.dst 0 0x240C0 = some (pad + 0x40C0) ∧
    (((u.open (pad + 0x40C0) 64).eccClear (pad + 0x40C0) 64).store (pad + 0x40C0) f.msg.bytes).placeOf f.dst 0 0x20030 = some (pad + 0x30) :=
  ⟨arrives_of (by decide +kernel), by decide +kernel, by constructor <;> decide +kernel, by decide +kernel, told_of (by decide +kernel),
   by and_intros <;> decide +kernel⟩

/-- Refusals without a storing instruction and with one, before the last attempt and at it: a full ring (of a claimed message
too), a full mailbox, messages that stand in a ring; and of an ordered mailbox a key 16 ahead, one just not passed, one that is
there, one that is running, and a full mailbox. -/
def refusals : List State :=
  [crowded, (ringed 1 (mailed false false id)).modSlot 0 (fun sl => { sl with rings := [(0x20000, 0)] }) |>.modCore 0 fun c =>
     { c with vect := c.vect.set 9 0x8800000000020000 },
   mailed false false (ordered 0xFFFFFFF0), mailed false false (ordered 0x80000001), mailed false false fun m => { ordered 0 (holding m) with quota := 2 },
   (mailed false false (ordered 0)).modSlot 0 fun sl => { sl with keyed := some 0 }, mailed false false fun m => { ordered 0 m with quota := 0 }]

theorem wit_MessagesAreDelivered_refused : ∀ s ∈ refusals, Arrives s 0 (theFlight s) ∧ s.stuck = none ∧ Refuses s (theFlight s) ∧
    (theFlight s).tries + 1 < 1024 ∧ s.ns < (theFlight s).born + 1000000 ∧ ToldInSlot s (theFlight s) := by
  have one (s : State) (h : (decide (s.net.flights[0]? = some (theFlight s)) && decide ((theFlight s).due = none)) = true)
      (hs : s.stuck = none) (hr : Receives s (theFlight s) 0)
      (hf : (let f := theFlight s; let m := (s.slot 0).mb[f.msg.mb]
        f.claimed = false ∧ f.msg.vc = false ∧ f.tries + 1 < 1024 ∧ s.ns < f.born + 1000000 ∧
          if m.ord then (f.msg.key - m.nextKey).toNat < 2 ^ 31 ∧ (16 ≤ (f.msg.key - m.nextKey).toNat ∨ m.quota.toNat ≤ quotaUsed m ∨
            (∃ h ∈ m.held, h.entry = .quota ∧ h.msg.key = f.msg.key) ∨ ((s.slot 0).keyed = some f.msg.mb ∧ (f.msg.key - m.nextKey).toNat = 0))
          else m.quota.toNat ≤ quotaUsed m ∨
            ((s.slot 0).rings.any fun e => (s.ringMsgs f.dst e.1 e.2).any fun r => decide (r.mb = f.msg.mb)) = true))
      (ht : ((match (theFlight s).report with | .post _ => false | _ => true) &&
        match s.ctx (theFlight s).core (theFlight s).ctxid with | some x => (match x.loc with | .saved _ _ => false | _ => true) | none => true) = true) :
      Arrives s 0 (theFlight s) ∧ s.stuck = none ∧ Refuses s (theFlight s) ∧
        (theFlight s).tries + 1 < 1024 ∧ s.ns < (theFlight s).born + 1000000 ∧ ToldInSlot s (theFlight s) :=
    ⟨arrives_of h, hs, .inr ⟨0, hr, hf.1, hf.2.1, by simpa only [List.any_eq_true, decide_eq_true_eq] using hf.2.2.2.2⟩, hf.2.2.1, hf.2.2.2.1, told_of ht⟩
  intro s hs
  simp only [refusals, List.mem_cons, List.not_mem_nil, or_false] at hs
  unfold quotaUsed at one
  rcases hs with rfl | rfl | rfl | rfl | rfl | rfl | rfl <;>
    exact one _ (by decide +kernel) (by decide +kernel) (by constructor <;> decide +kernel) (by decide +kernel) (by decide +kernel)

theorem wit_MessagesAreDelivered_refused_ring : ∀ claimed : Bool, let s := ringed 4 (mailed claimed false id)
    Arrives s 0 (theFlight s) ∧ s.stuck = none ∧ Refuses s (theFlight s) ∧ (theFlight s).claimed = claimed := by
  intro claimed
  cases claimed <;> exact ⟨arrives_of (by decide +kernel), by decide +kernel,
    .inl ⟨0x20000, 0, by constructor <;> decide +kernel, by decide +kernel⟩, by decide +kernel⟩

/-- The last attempt, and the end of the 1 ms; a storing instruction then traps. -/
theorem wit_MessagesAreDelivered_refused_last : let s := postedBy 1023 crowded
    Arrives s 0 (theFlight s) ∧ s.stuck = none ∧ Receives s (theFlight s) 0 ∧ ((s.slot 0).mb[0]).ord = false ∧
    ((s.slot 0).mb[0]).quota.toNat ≤ quotaUsed (s.slot 0).mb[0] ∧ (theFlight s).tries + 1 = 1024 ∧ (theFlight s).claimed = false ∧ PostsHigh s ∧
    (theFlight crowded).born + 1000000 ≤ { crowded with ns := 1000000 }.ns ∧ ToldInSlot (reported .bead 1023 crowded) (theFlight (reported .bead 1023 crowded)) := by
  unfold PostsHigh
  exact ⟨arrives_of (by decide +kernel), by decide +kernel, by constructor <;> decide +kernel, by decide +kernel, by unfold quotaUsed; decide +kernel,
    by decide +kernel, by decide +kernel, ⟨by decide +kernel, by decide +kernel, ⟨by decide +kernel, by decide +kernel, by unfold Unheld; decide +kernel⟩,
    by decide +kernel⟩, by decide +kernel, told_of (by decide +kernel)⟩

/-- Discards: no valid entry, an empty slot, another class, an unconfigured mailbox, a mask without the type, a reply under no
tag of the slot, and one whose tag's entry is taken; and a core that is not there. -/
def discards : List State :=
  [unclaimed, (mailed false false id).modSlot 0 fun sl => { sl with status := .empty }, (mailed false false id).modSlot 0 fun sl => { sl with cls := 1 },
   mailed false false fun m => { m with conf := false }, mailed false false fun m => { m with mask := 0 }, untagged,
   mailed false true fun m => { m with held := [⟨⟨9, 0, .replicate 6 0⟩, 0, .reserved 5⟩] },
   (mailed false false id).modNet fun q => { q with flights := q.flights.map fun f => { f with dst := 4096 } }]

theorem wit_MessagesAreDelivered_discarded : ∀ s ∈ discards, Arrives s 0 (theFlight s) ∧ s.stuck = none ∧ Discards s (theFlight s) ∧
    (theFlight s).report = .nothing ∧ ToldInSlot s (theFlight s) := by
  intro s hs
  simp only [discards, List.mem_cons, List.not_mem_nil, or_false] at hs
  unfold Discards
  rcases hs with rfl | rfl | rfl | rfl | rfl | rfl | rfl | rfl <;>
    exact ⟨arrives_of (by decide +kernel), by decide +kernel, by decide +kernel, by decide +kernel, told_of (by decide +kernel)⟩

theorem wit_MessagesAreDelivered_discarded_post : Arrives (postedBy 0 unclaimed) 0 (theFlight (postedBy 0 unclaimed)) ∧
    Discards (postedBy 0 unclaimed) (theFlight (postedBy 0 unclaimed)) ∧ PostsHigh (postedBy 0 unclaimed) := by
  unfold Discards PostsHigh
  exact ⟨arrives_of (by decide +kernel), by decide +kernel, by decide +kernel, by decide +kernel,
    ⟨by decide +kernel, by decide +kernel, by unfold Unheld; decide +kernel⟩, by decide +kernel⟩

/-- The key just behind, and the one farthest behind. -/
theorem wit_MessagesAreDelivered_passed : ∀ key ∈ ([1, 0x80000000] : List (BitVec 32)), let s := mailed false false (ordered key)
    Arrives s 0 (theFlight s) ∧ Passed s (theFlight s) 0 ∧ ToldInSlot s (theFlight s) ∧ (theFlight s).report = .nothing ∧ (s.slot 0).retries = [] ∧
    Unheld s 0 ∧ s.policy scCore (theFlight s).dst 2 < 2 := by
  unfold Passed Unheld
  intro key hk
  simp only [List.mem_cons, List.not_mem_nil, or_false] at hk
  rcases hk with rfl | rfl <;> exact ⟨arrives_of (by decide +kernel), ⟨by constructor <;> decide +kernel, by decide +kernel⟩, told_of (by decide +kernel),
    by decide +kernel⟩

/-- A backoff that has passed, and an activation after LANE's delay. -/
theorem wit_MessagesAreDelivered_retried : (theFlight (crowded.modNet fun q => { q with flights := q.flights.map fun f => { f with due := some 0 } })).due = some 0 ∧
    ((worldWith fun sl => { sl with phase := .blocked (.retryAt 0) }).slot (slotKey 0 (0 : Fin 8).val)).phase = .blocked (.retryAt 0) ∧
    0 ≤ world.ns := ⟨by decide +kernel, by decide +kernel, by omega⟩

/-- R174: the message stands in its mailbox; or is refused and waits. -/
theorem test_delivery :
    gives (.delivery 0) (mailed false false id) (fun t => decide (t.net.flights = []) && decide (((t.slot 0).mb[0]).held.length = 1)) = true ∧
    gives (.delivery 0) crowded (fun t => flight0 t fun f => decide (f.tries = 1) && decide (f.due = some 64)) = true := by decide +kernel

/-- The pipeline is free and slot 0 is ready; or idle with a candidate; or slot 1 of higher priority is ready. -/
def waiting (p : Phase) : State := ((mailed false false fun m => { m with held := [⟨⟨9, 0, .replicate 6 4⟩, 0, .quota⟩] }).modSlot 0 fun sl =>
  { sl with phase := p, cand := some (0, 0) }).modCore 0 fun c => { c with running := none }

def rival (ran : Nat) : State := (twoActors.modSlot 0 fun sl => { sl with ran := ran }).modSlot 1 fun sl => { sl with phase := .ready, basePrio := 3 }

theorem wit_ActivationsAreScheduled : (waiting .ready).nextSlot 0 = some 0 ∧ ((waiting .ready).core 0).running = none ∧
    (waiting .idle).nextSlot 0 = some 0 ∧ ((waiting .idle).slot 0).cand = some (0, 0) ∧ (((waiting .idle).slot 0).mb[0]).held.length = 1 ∧
    ((rival 256).core 0).running = some 0 ∧ (rival 256).nextSlot 0 = some 1 ∧ 256 ≤ ((rival 256).slot 0).ran ∧
    ((rival 256).slot 0).basePrio.toNat < (rival 256).effective (slotKey 0 1) ∧ ((rival 255).slot 0).ran < 256 ∧ (rival 255).nextSlot 0 = some 1 ∧
    (let s := { waiting .ready with cycle := 4096 }
     (s.slot 0).waitsForCore = true ∧ (s.slot 0).aged < (s.cycle - (s.slot 0).since) / 4096) :=
  (by and_intros <;> decide +kernel)

/-- Waits whose condition holds. -/
theorem wit_ActivationsAreScheduled_waits : (world.slot 0).beads[0] ≠ 63 ∧ (world.core 0).mxuIn.length < 8 ∧ (world.core 0).vecIn.length < 8 ∧
    (world.chan 0 0).inbox.length < 16 ∧ (world.runInbox 0 0).length < 4 ∧ (world.bankQueue 0).length < 8 ∧ (world.die 0).queued < 64 ∧
    (world.slot 0).beads[0] ≤ 0 ∧ (world.slot 0).beads[1] ≤ 0 ∧ (world.slot 0).beads[2] ≤ 0 ∧ (world.slot 0).beads[3] ≤ 0 ∧
    (∀ e ∈ ([(0, 8), (8, 8)] : List (Nat × Nat)), e.2 ≤ (world.freeGuards e.1).length) ∧ world.waitsAt 0x1000000 8 = none ∧
    world.poolUsed 0 + 1 ≤ 128 ∧ world.net.reqs = [] ∧ ((worldWith fun sl => { sl with granted := 1 }).slot 0).resv.length < ((worldWith fun sl => { sl with granted := 1 }).slot 0).granted := by
  decide +kernel

/-- R90, R181: the candidate starts at the handler of its type. -/
theorem test_dispatch : gives (.dispatch 0) (waiting .idle) (fun t => decide ((t.slot 0).pc = 0x20000) && decide ((t.slot 0).a[0] = 4) &&
    decide ((t.core 0).running = some 0)) = true := by decide +kernel

/-- The one child of `launched`, with the object that its record names, whose actor takes type 9, and initial messages. -/
def placing (msgs : List Msg) : State :=
  let s := [(0x18, 0x1000100), (0x20, 1), (0x100, 9)].foldl (fun s e => s.storeLE (0x1000000 + e.1) 8 e.2) (objects [] id)
  s.queueLaunch 0 (vec8 launchWords) msgs [] .packet 0 0 0

theorem wit_ChildrenArePlaced : (match ((placing []).die 0).launches[0]? with
    | some l => decide ((placing []).launchOf 0 l.id = some l) && decide ((placing []).resumable 0 l = none) &&
      decide ((placing []).placeable l = some (0, 1)) && decide (((placing []).placeChild 0 l 0 1).stuck = none)
    | none => false) = true := by decide +kernel

/-- R196: the child, and its initial message with the child id in a5. -/
theorem test_placement : gives (.childPlacement 0 0) (placing []) (fun t => decide ((t.slot 1).status = .live) && decide ((t.slot 1).gen = 7)) = true ∧
    gives (.childPlacement 0 0) (placing [⟨9, 0, .replicate 6 5⟩]) (fun t => decide (((t.slot 1).mb[0]).held.map (fun h => (h.msg.type, h.msg.pay)) =
      [(9, (Vector.replicate 6 5).set 5 0)])) = true := by decide +kernel

/-- Launch queue 0 of die 0 in the own scratchpad, page 0x20000: control block, ring of 4 with RDIDX 5, completion words; a record
of a kind, the launch record of `launchWords` for kind 0. -/
def queued (kind : Nat) : State :=
  let s := [(0x8008, 5), (0x8010, 4), (0x9080, 2 ^ 24 + kind), (0x9088, 1), (0x9090, 0x1000000), (0x9098, 7), (0x90A0, 0x10000), (0x90B0, 0x8000000), (0x90C0, 5)].foldl
    (fun s e => s.storeLE (pad + e.1) 8 e.2) (objects [] id)
  let s := (s.storeLE 0x1000010 4 1).modModule fun m => { m with refs := [⟨queueNo 0 0, 0x1000000, 7, false⟩] }
  s.modDie 0 fun d => { d with lqs := d.lqs.set 0 ⟨0x28001, 0x29000, 0x2A000, 0, 5, []⟩ }

/-- The head of the queue, its completion word, and a step that ends the record without a wait. -/
def headed : QueueHead := ⟨pad + 0x8000, 5, 0x29080⟩
def ends (s : State) (r : Except Word Nat) : Bool :=
  decide (s.queuePlace 0 0 .store 0x2A000 = some (pad + 0xA000)) && decide ((s.queueNext 0 0 headed r).stuck = none)

/-- A load record of an object that is current and of one that is not; an unload record; the three words lie apart. -/
theorem wit_QueuesAndDetectorsAct :
    (let u := (queued 1).openQueue 0 0
     let v := u.openObject 0x1000000
     decide (u.queueTurn 0 0 = some (headed, some (1, 0x1000000, 7))) && v.current 0x1000000 7 && ends (v.addReference 0 0x1000000 7) (.ok 0) &&
     decide (v.own 0x1000010 = 0x1000010) && decide (0x1000010 + 8 ≤ pad + 0x8008) && decide (pad + 0x8010 ≤ pad + 0xA000)) = true ∧
    (let u := ((queued 1).storeLE 0x1000008 8 8).openQueue 0 0
     let v := u.openObject 0x1000000
     decide (u.queueTurn 0 0 = some (headed, some (1, 0x1000000, 7))) && !v.current 0x1000000 7 && ends v (.error stNOOBJ)) = true ∧
    (let u := (queued 2).openQueue 0 0
     let v := u.openObject 0x1000000
     decide (u.queueTurn 0 0 = some (headed, some (2, 0x1000000, 7))) && v.current 0x1000000 7 && decide (v.loadLE 0x1000010 4 = 1) &&
     ends (v.dropReference 0 0 0x1000000 7) (.ok 0)) = true := by and_intros <;> decide +kernel

/-- A launch record: accepted; of an object that the queue has unloaded; and refused with a status. -/
def launchTurn (s : State) (p : State → State × Except Word Nat → Bool) : Bool :=
  let u := s.openQueue 0 0
  decide (u.queueTurn 0 0 = some (headed, some (0, 0x1000000, 7))) && p u ((u.dropFrameOf 0 0 5).packetLaunch 0 0x29080 0 5 (.queue 0) none)

def accepted (r : State × Except Word Nat) (p : State → Nat → Bool) : Bool :=
  match r.2 with
  | .ok id => p r.1 id
  | .error _ => false

theorem wit_QueuesAndDetectorsAct_launch :
    launchTurn (queued 0) (fun u r => !u.unloadedBy 0 0x1000000 7 && accepted r fun x id => ends x (.ok id)) = true ∧
    launchTurn ((queued 0).modModule fun m => { m with refs := [⟨0, 0x1000000, 7, true⟩] }) (fun u r => u.unloadedBy 0 0x1000000 7 &&
      ends (u.dropFrameOf 0 0 5) (.error stNOOBJ) && accepted r fun _ _ => true) = true ∧
    launchTurn ((queued 0).storeLE (pad + 0x9088) 8 0) (fun u r => !u.unloadedBy 0 0x1000000 7 && (match r.2 with
      | .ok _ => false
      | .error e => ends r.1 (.error e))) = true := by and_intros <;> decide +kernel

/-- R395, R396: the completion word of the launch holds its id over the slot's index. -/
theorem test_queueLaunch : gives (.launchQueueRecord 0 0) (queued 0) (fun t => decide (t.loadLE (pad + 0xA000) 8 = 2 ^ 32 + 5) &&
    decide (t.loadLE (pad + 0x8008) 8 = 6) && decide ((t.die 0).launches.map Launch.jobcol = [5])) = true := by decide +kernel

/-- An unloaded object that nothing uses, in a machine in which nothing travels. -/
def unloading : State := (objects [] id).modModule fun m => { m with unloads := [⟨0x1000000, 0, 7, false⟩] }

theorem unmap_still {s : State} (h : s.calm = true) (asid : BitVec 16) (va : Nat) : Still s (s.unmapAt asid va) := by
  unfold State.unmapAt
  dsimp only
  split
  · exact .openStore h _ _ _ _ _
  · exact .refl s

theorem wit_QueuesAndDetectorsAct_freed : unloading.inUse 0x1000000 7 = false ∧ unloading.descHolds 0x1000000 7 = true ∧ unloading.stuck = none ∧
    ∀ lo hi, unloading.travels ⟨some 0, lo, hi⟩ = false ∧ ((pagesOf lo hi).foldl (State.unmapAt 0) unloading).stuck = none := by
  have hn : unloading.net.reqs = [] ∧ unloading.translated = [] ∧ unloading.net.vias = [] := by decide +kernel
  have hc : unloading.calm = true := by decide +kernel
  refine ⟨by decide +kernel, by decide +kernel, by decide +kernel, fun lo hi => ⟨?_, ?_⟩⟩
  · simp [State.travels, State.postsThrough, hn]
  · exact (State.foldl_keeps (Still unloading) _ _ (.refl _) fun t v g => g.trans (unmap_still (g.calm hc) 0 v)).stuck.trans (by decide +kernel)

/-- A coalescing window that has ended, and a detector whose set is quiet or is not, with its armer there or gone. -/
noncomputable def armedFor (colour : Word) : State := after (.quiesArm (.s 3) (.s 1) (.s 2)) (worldWith (s12 colour 0xC00))

theorem wit_QueuesAndDetectorsAct_events :
    ({ world.sdie with msiDue := [(3, 0)] }.msiDue.find? fun e => e.1 = 3) = some (3, 0) ∧
    (armedFor 0).module.detect[0]?.any (fun x => decide (x.core < 4096) && !(armedFor 0).quiescent x.scope x.core x.colour) = true ∧
    (armedFor 9).module.detect[0]?.any (fun x => (armedFor 9).quiescent x.scope x.core x.colour && (armedFor 9).present x.core x.ctxid &&
      decide (((armedFor 9).releaseAll x.scope x.core x.colour).stuck = none)) = true ∧
    (armedFor 9).stuck = none ∧ ((armedFor 9).modCore 0 fun c => { c with ctxs := [] }).present 0 1 = false := by and_intros <;> decide +kernel
/-! ### Witnesses: numbers, the MXU and the vector unit -/

/-- The last mode and threshold; 3 between powers of two, in the largest value and above it; and zero. -/
theorem wit_ConversionsRoundOnce : (4 : Nat) ≤ 4 ∧ (255 : Nat) < 256 ∧ 0 < (⟨3, 1, 0⟩ : Ratio).d ∧ (2 : Rat) ^ (1 : Int) ≤ ratQ ⟨3, 1, 0⟩ ∧
    ratQ ⟨3, 1, 0⟩ < (2 : Rat) ^ ((1 : Int) + 1) ∧ ratQ ⟨0, 1, 0⟩ = 0 ∧ (3 : Rat) ≤ 6 ∧ (6 : Rat) < ratQ ⟨7, 1, 0⟩ := by
  norm_num [ratQ]

/-- R36, R38, R42: −257 lies midway between two BF16 values; 448 is the largest E4M3 value. -/
theorem test_roundings :
    [0, 1, 2, 3].map (fun m => encodeRatio 2 ⟨m, false, 0⟩ true ⟨257, 1, 0⟩) =
      [(0xC380, flIX), (0xC380, flIX), (0xC381, flIX), (0xC380, flIX)] ∧
    encodeRatio 4 ⟨0, true, 0⟩ false ⟨448, 1, 0⟩ = (0x7E, 0) ∧ encodeRatio 4 ⟨0, true, 0⟩ false ⟨500, 1, 0⟩ = (0x7E, flOF ||| flIX ||| flSAT) := by
  decide +kernel

/-- A block whose largest magnitude is 1.5; one of zeros; one with a NaN; a band scale of 1; and 32 ones. -/
theorem wit_BlockConversionsAndTransforms :
    (let vs : List Val := [.fin false 3 (-1), .fin true 1 0]
     (∀ v ∈ vs, v.isFin = true ∧ (valQ v).abs < (2 : Rat) ^ ((0 : Int) + 1)) ∧ (∃ v ∈ vs, (2 : Rat) ^ (0 : Int) ≤ (valQ v).abs)) ∧
    (Val.fin true 0 0).isFin = true ∧ valQ (.fin true 0 0) = 0 ∧ (Val.nan false).isFin = false ∧
    (Val.fin false 1 0).isFin = true ∧ valQ (.fin false 1 0) ≠ 0 ∧
    (List.replicate 32 (Val.fin false 1 0)).length = 32 ∧ ∀ v ∈ List.replicate 32 (Val.fin false 1 0), v.isFin = true := by
  refine ⟨⟨?_, ?_⟩, rfl, by simp [valQ], rfl, rfl, by simp [valQ], rfl, fun v hv => by rw [List.eq_of_mem_replicate hv]; rfl⟩
  · intro v hv
    rcases List.mem_cons.mp hv with rfl | hv
    · exact ⟨rfl, by norm_num [valQ, Rat.abs]⟩
    · rw [List.mem_singleton.mp hv]; exact ⟨rfl, by norm_num [valQ, Rat.abs]⟩
  · exact ⟨.fin false 3 (-1), by simp, by norm_num [valQ, Rat.abs]⟩

/-- `engines` with other handles at t1 to t3. -/
def handled (l : List (Nat × Nat)) (a b c : BitVec 256) : State := (engines l).modSlot 0 fun sl => { sl with t := ((sl.t.set 1 a).set 2 b).set 3 c }

/-- A tile, rows of one BF16 element in the A scratchpad and the B-store. -/
def tileAt (anchor : Nat) : BitVec 256 := handleAt 0x60000 13 32 32 384 + BitVec.ofNat 256 (anchor * 2 ^ 224)

/-- The command at the head of the MXU's inbox may start. -/
def mxuHead (s : State) (opc : Nat) : Bool :=
  match (s.core 0).mxuIn with
  | c :: _ => decide (mxuOpc c.w = opc) && decide ((s.core 0).mxuFree ≤ s.cycle) && c.insn && c.entered && decide ((mxuReplyTo 0 c.w).rkind = 0)
  | [] => false

def vecHead (s : State) (opc : Nat) : Bool :=
  match (s.core 0).vecIn with
  | c :: _ => decide (lineLen (vecD c.w) ≤ (vecD c.w).rstride) && decide (vecOpc c.w = opc) && decide ((s.core 0).vecFree ≤ s.cycle) && c.insn && c.entered && decide ((vecReplyTo 0 c.w).rkind = 0)
  | [] => false

/-- A zeroed tile 0 of anchor 0, 2 in A and 3 in B as BF16. -/
def zeroed : State := ((handled [(0, 0x4000)] (tileAt 0) (handleAt 0x20000 2 1 1 4) (handleAt 0x50000 2 1 1 1024)).storeLE 0xF000040000 2 0x4040).modCore 0
  fun c => { c with tiles := c.tiles.set 0 ⟨0, 0x8000, 0, false, false, false⟩ }

noncomputable def multiplying : State := after (.mma 1 2 3 0) zeroed
noncomputable def multiplied : State := { after (.mxuCmdMma 0) multiplying with cycle := 200000 }

noncomputable def replied : State := (after (.mxuReply 0) multiplied).modCore 0 fun c => { c with tlb := [] }

theorem wit_MatrixCommandsArePerformed :
    mxuHead (after (.mzeroZero 1 0) (handled [] (tileAt 0) 0 0)) 0x41 = true ∧ mxuHead multiplying 0x40 = true ∧
    mxuHead (after (.manch 1 0) (handled [] (tileAt 0xFFFE) 0 0)) 0x45 = true ∧ mxuHead (after (.mstatRd 2 1 0) zeroed) 0x44 = true ∧
    mxuHead (after (.mcvtRne 2 1 0 0) (zeroed.modSlot 0 fun sl => { sl with t := sl.t.set 2 (handleAt 0x20000 1 1 1 4) })) 0x42 = true ∧
    mxuHead (after (.mbput 3 2 0) zeroed) 0x46 = true ∧ (zeroed.tile 0 0).poison = false ∧ ((handled [] 0 0 0).tile 0 0).poison = true := by
  decide +kernel

/-- R253, R254: the product of 2 and 3; R258: the element as FP32 is 6; MBPUT copies the row. -/
theorem test_matrix : multiplied.tileInt 0 0 0 0 = 6 ∧
    (after (.mxuCmdMcvt 0) (after (.mcvtRne 2 1 0 0) (replied.modSlot 0 fun sl => { sl with t := sl.t.set 2 (handleAt 0x20000 1 1 1 4) }))).loadLE pad 4 =
      0x40C00000 ∧
    (after (.mxuCmdMbput 0) (after (.mbput 3 2 0) zeroed)).loadLE 0xF000040000 2 = 0x4000 := by decide +kernel

/-- MRESC's multiplier rows: 1 and a shift of 0. -/
theorem wit_MatrixCommandsArePerformed_mresc :
    mxuHead (after (.mresc 2 1 3 0) (replied.modSlot 0 fun sl => { sl with
      t := (sl.t.set 2 (handleAt 0x80000 12 1 1 4)).set 3 (handleAt 0x90000 12 2 1 4) })) 0x43 = true ∧ replied.poison = [] := by decide +kernel

/-- VMAP.add on I32 elements in three pages: 5 and 7. -/
def adding : State := (engines [(0x20000, 5), (0, 7)]).modSlot 0 fun sl => { sl with
  t := ((sl.t.set 4 (handleAt 0x80000 12 1 1 4)).set 5 (handleAt 0x90000 12 1 1 4)).set 6 (handleAt 0x20000 12 1 1 4) }

theorem wit_VectorCommandsArePerformed :
    ([(.vmapAdd 4 5 6 0 0, 0x48), (.vcmpEq 7 5 6 0, 0x4A), (.vlogAnd 4 5 6 0, 0x4B), (.vshfShl 4 5 6 0, 0x4C), (.vredSum 4 5 0 0, 0x4D),
      (.vcvtRne 4 5 0 0, 0x4F), (.vselSel 4 5 6 0, 0x50), (.vpermRev 4 5 0, 0x51)] : List (Instr × Nat)).all (fun e =>
        vecHead (after e.1 (adding.modSlot 0 fun sl => { sl with t := sl.t.set 7 (handleAt 0x80000 15 1 1 4) })) e.2) = true := by decide +kernel

/-- BF16 operands of 2 rows and 32 columns. -/
theorem wit_VectorArithmeticRoundsOnce :
    ([(.vmapAdd 4 5 6 0 0, 0x48), (.vfmaFma 4 5 6 0 0, 0x49), (.vredSum 7 5 0 0, 0x4D), (.vxfExp2 4 5 0 0, 0x4E), (.vcvtRne 4 5 0 0, 0x4F)] :
      List (Instr × Nat)).all (fun e => vecHead (after e.1 ((engines []).modSlot 0 fun sl => { sl with
        t := sl.t.set 7 (handleAt 0x80000 2 2 1 64) })) e.2) = true := by decide +kernel

theorem test_vector : (after (.vecCmdVmap 0) (after (.vmapAdd 4 5 6 0 0) adding)).loadLE (pad + 0x10000) 4 = 12 ∧
    (after (.vecCmdVlog 0) (after (.vlogAnd 4 5 6 0) adding)).loadLE (pad + 0x10000) 4 = 5 ∧
    (after (.vecCmdVshf 0) (after (.vshfShl 4 5 6 0) adding)).loadLE (pad + 0x10000) 4 = 640 := by decide +kernel

/-- A unit has run a command of a reply kind and context. -/
def hasRun (vec : Bool) (rkind ctxid : Nat) (cause : BitVec 10) : State :=
  let w : Vector Word 8 := ((Vector.replicate 8 0).set 0 (BitVec.ofNat 64 (rkind * 2 ^ if vec then 14 else 32))).set 1 (BitVec.ofNat 64 ctxid)
  let st : Started := ⟨⟨9, w, none, true, 0, true, some 0, []⟩, cause, 0, false, 0, 0⟩
  world.modCore 0 fun c => if vec then { c with vecRun := [st] } else { c with mxuRun := [st] }

/-- What a unit's oldest command replies. -/
def repliesAs (vec : Bool) (s : State) (p : Started → ReplyTo → Bool) : Bool :=
  match if vec then (s.core 0).vecRun else (s.core 0).mxuRun with
  | st :: _ => p st (if vec then vecReplyTo 0 st.cmd.w else mxuReplyTo 0 st.cmd.w)
  | [] => false

/-- Every reply kind of both units for the context of slot 0; a fault without an issuer for no context. -/
theorem wit_MatrixAndVectorReplies :
    ([true, false].all fun vec => [0, 1, 2].all fun kind => repliesAs vec (hasRun vec kind 1 0) fun st r =>
      decide (st.cause = 0) && decide (r.rkind = kind) && st.cmd.claimed.isSome &&
      ((hasRun vec kind 1 0).ctx 0 r.ctxid).any fun x => decide (x.loc = .slot 0)) = true ∧
    (world.slot (slotKey 0 0)).status = .live ∧
    ([true, false].all fun vec => repliesAs vec (hasRun vec 1 9 0x118) fun st r => decide (st.cause ≠ 0) && decide (r.rkind = 1) &&
      decide (st.cmd.issuer = none) && decide ((hasRun vec 1 9 0x118).ctx 0 r.ctxid = none)) = true ∧ (hasRun true 1 9 0x118).stuck = none := by decide +kernel

/-- A post of a flag-word reply that is due, for an inbox that has room and one that has none. -/
theorem wit_MatrixAndVectorReplies_posted :
    ([(true, Inbox.vector 0), (false, .mxu 0)] : List (Bool × Inbox)).all (fun e =>
      let w : Vector Word 8 := (Vector.replicate 8 0).set 0 (if e.1 then 0x4000 else 0x100000000)
      let p : Post := ⟨9, e.2, w, none, 0, 0, none, none⟩
      decide ((if e.1 then vecReplyTo 0 p.w else mxuReplyTo 0 p.w).rkind = 1) && decide (p.due = none) && decide (p.tries + 1 < 1024) &&
      decide (world.ns < p.born + 1000000) && decide ((if e.1 then (world.core 0).vecIn else (world.core 0).mxuIn).length < 8)) = true := by decide +kernel

/-- R248, R50: the reply lowers bead 3 and frees the guards. -/
theorem test_reply : (replied.slot 0).beads[3] = 0 ∧ (multiplied.slot 0).beads[3] = 1 ∧ (replied.core 0).guards = [] ∧ (multiplied.core 0).guards ≠ [] := by
  decide +kernel

/-! ### Witnesses: the Ladle -/

/-- What a free channel would do with the packet whose turn it is: the state that has opened its pages, and what it carries. -/
def packetAt (s : State) (cl ch opc : Nat) (p : State → Carriage → Candidate → Bool) : Bool :=
  match s.nextPacket cl ch with
  | some x => decide (x.queue = none) && decide ((ladReplyTo x.cmd.w).rkind ≠ 2) && decide (ladOpc x.cmd.w = opc) &&
      x.cmd.issuer.any fun i =>
        let w := x.cmd.w
        let asid : BitVec 16 := w[7].extractLsb' 40 16
        okAnd (s.bump.plan i.core (cl / 4) asid (if w[7].getLsbD 56 then 2 else 0) w) fun e =>
          let v := e.1.openPages i.core asid e.2
          decide (v.stuck = none) && p v e.2 x
  | none => false

/-- A packet of the running actor in the inbox of channel 0, as LPOST.cp stamps it, with the shape record at 0x80000. -/
def channelledIn (s : State) (w : Vector Word 8) : State :=
  s.modChan 0 0 fun x => { x with inbox := [⟨7, (s.slot 0).ownPacket 0 true w, some ⟨0, (s.slot 0).ctxid, 0x10000, 0⟩, true, 0, true, none, []⟩] }

def channelled : Vector Word 8 → State := channelledIn (engines [(0, 0x10), (0x10008, 2 ^ 32 + 8)])

/-- What `Sound` asks, as a check of the eight stacks. -/
def soundAt (s : State) : Bool := decide (∀ j : Fin 8, s.hbm[j].sound = true)

theorem sound_of {s : State} (h : soundAt s = true) : Sound s := fun st => of_decide_eq_true h (ix 8 st)

/-- A fill and a copy of 8 bytes, a NOP. -/
def filling : State := channelled #v[0x11, 0, 0x0807060504030201, 0x90000, 0, 0x80000, 0, 0]
def copying : State := channelled #v[0x10, 0, 0x20000, 0x90000, 0, 0x80000, 0, 0]

/-- A launch packet of the record at 0x20000. -/
def launchingPacket : State := channelledIn launching #v[0x14, 0, 0x20000, 0, 0, 0, 0, 0x0100000000000000]

/-- Two rows of 8 bytes, 16 apart, that become the rows 31 and 32 of the compute-capable page. -/
def relaying : State := channelledIn (engines [(0, 0x10), (0x10008, 2 ^ 33 + 8), (0x10010, 2), (0x10020, 16)]) #v[0x12, 0, 0x20000, 0x200000, 0x80000, 31, 0, 0]

theorem wit_LadlePacketsArePerformed : packetAt (channelled #v[0x13, 0, 0, 0, 0, 0, 0, 0]) 0 0 0x13 (fun _ _ _ => true) = true ∧
    packetAt filling 0 0 0x11 (fun _ p _ => decide (p.src = none) && p.dst.any fun f => decide (bytesIn f.pieces = 8)) = true ∧
    packetAt copying 0 0 0x10 (fun _ p _ => p.src.any fun f => p.dst.any fun g => decide (bytesIn f.pieces = bytesIn g.pieces)) = true ∧
    packetAt relaying 0 0 0x12 (fun _ p x => (p.src.any fun f => p.dst.any fun g => decide (bytesIn f.pieces = bytesIn g.pieces)) &&
      okAnd (relaying.bump.readShape 0 0 2 x.cmd.w[4]) fun r => decide (r.2.1.len0 = 8) && decide (r.2.1.dims = [(2, 16)])) = true ∧
    packetAt launchingPacket 0 0 0x14 (fun v _ x =>
      let m := v.submit 0 0 0 2 (launchingPacket.bump.packetLauncher x) none x.cmd.w
      decide (m.s.stuck = none) && decide (m.cause = 0)) = true := by
  and_intros <;> decide +kernel

/-- R307: row 31 goes to bank 31, row 32 to bank 0 after the row there. -/
theorem test_relayout : packetAt relaying 0 0 0x12 (fun _ p _ => p.dst.any fun g => decide (g.runs = [(0x3F0000, 8), (0x200008, 8)])) = true := by
  decide +kernel

/-- One byte of a footprint in the own scratchpad; a channel whose packet has some work left; and one whose translation is gone. -/
def byteAt (va key : Nat) : Piece := ⟨va, ⟨0xF000020037, 16, key, none⟩, key, 1, false⟩

def carrying (opc : Word) (k : Work) : State := (engines [(0, 0x10)]).modChan 0 0 fun x =>
  { x with cur := some ⟨⟨⟨7, #v[opc, 0, 0x0807060504030201, 0, 0, 0, 0, 0], some ⟨0, 1, 0x10000, 0⟩, true, 0, true, none, []⟩, 0, 0, false, 0, 0⟩, none, some k⟩ }

def oneByte (src : Bool) : Work := ⟨0, 0, 2, if src then [byteAt 0x20000 pad] else [], [byteAt 0x90003 (pad + 0x20003)]⟩
def staleByte : Work := ⟨0, 0, 2, [], [{ byteAt 0xA0000 0 with stale := true }]⟩

/-- A piece of one byte is moved whole, whatever the part's length. -/
theorem splitPieces_one (n : Nat) (q : Piece) (h : q.n = 1) : splitPieces (n + 1) [q] = ([q], []) := by simp [splitPieces, h]

/-- What `Unhindered` asks, as a check. -/
def unhinderedAt (s : State) (ps : List Piece) : Bool :=
  ps.all fun p => !p.stale && decide (s.pieceCause p = none) && decide (s.waitsAt p.key p.n = none)

theorem unhindered_of {s : State} {ps : List Piece} (h : unhinderedAt s ps = true) : Unhindered s ps := by
  intro p hp
  have := List.all_eq_true.mp h p hp
  simpa [and_assoc] using this

theorem wit_LadlePacketsArePerformed_parts : ∀ n : Nat,
    (let s := carrying 0x11 (oneByte false)
     let back := (splitPieces (n + 1) (oneByte false).dst).1
     s.stuck = none ∧ ((s.chan 0 0).cur.bind Packet.work) = some (oneByte false) ∧ Unhindered s back ∧
       (s.fillBytes 0x0807060504030201 back).s.stuck = none ∧ (pieceKeys back).Nodup) ∧
    (∀ opc ∈ ([0x10, 0x12] : List Word), let s := carrying opc (oneByte true)
     let front := (splitPieces (n + 1) (oneByte true).src).1
     let back := (splitPieces (n + 1) (oneByte true).dst).1
     s.stuck = none ∧ ((s.chan 0 0).cur.bind Packet.work) = some (oneByte true) ∧ Unhindered s front ∧ Unhindered s back ∧
       bytesIn front = bytesIn back ∧ Sound s ∧ (s.moveBytes front back).s.stuck = none ∧ (∀ q ∈ front, q.x.tol = false) ∧
       (pieceKeys back).Nodup) ∧
    (let s := carrying 0x11 staleByte
     let back := (splitPieces (n + 1) staleByte.dst).1
     s.stuck = none ∧ ((s.chan 0 0).cur.bind Packet.work) = some staleByte ∧ back = staleByte.dst ∧
       (match s.translate 0 0 2 .store 0xA0000 with | .error e => decide (e ≠ 0) | .ok _ => false) = true ∧ (s.openStale staleByte back).stuck = none) := by
  intro n
  have h1 : splitPieces (n + 1) (oneByte false).dst = ((oneByte false).dst, []) := splitPieces_one n _ rfl
  have h2 : splitPieces (n + 1) (oneByte true).dst = ((oneByte true).dst, []) := splitPieces_one n _ rfl
  have h3 : splitPieces (n + 1) (oneByte true).src = ((oneByte true).src, []) := splitPieces_one n _ rfl
  have h4 : splitPieces (n + 1) staleByte.dst = (staleByte.dst, []) := splitPieces_one n _ rfl
  rw [h1, h2, h3, h4]
  refine ⟨⟨by decide +kernel, by decide +kernel, unhindered_of (by decide +kernel), by decide +kernel, by decide +kernel⟩, fun opc ho => ?_,
    by decide +kernel, by decide +kernel, rfl, by decide +kernel, by decide +kernel⟩
  simp only [List.mem_cons, List.not_mem_nil, or_false] at ho
  rcases ho with rfl | rfl <;> exact ⟨by decide +kernel, by decide +kernel, unhindered_of (by decide +kernel), unhindered_of (by decide +kernel),
    by decide +kernel, sound_of (by decide +kernel), by decide +kernel, by decide +kernel, by decide +kernel⟩

/-- What a part of a packet that starts writes. -/
def partOf (s : State) (opc : Nat) (n : Nat) (p : Moved → Bool) : Bool :=
  packetAt s 0 0 opc fun v c x => c.dst.any fun d =>
    (v.movePart ⟨0, 0, 2, c.src.elim [] Foot.pieces, d.pieces⟩ opc x.cmd.w[2] n).any p

/-- R305: bytes of the pattern by address; bytes of the source; a part of 3 bytes leaves 5. -/
theorem test_ladle :
    partOf filling 0x11 8 (fun m => decide (m.s.loadLE (pad + 0x20000) 8 = 0x0807060504030201) && decide (m.work = none)) = true ∧
    partOf copying 0x10 8 (fun m => decide (m.s.loadLE (pad + 0x20000) 8 = 0x10)) = true ∧
    partOf filling 0x11 3 (fun m => decide (m.s.loadLE (pad + 0x20000) 8 = 0x030201) && m.work.any fun w => decide (bytesIn w.dst = 5)) = true := by
  decide +kernel

/-- A bound queue whose head slot is at 0x90040, and a channel that has run its packet, and one of an issuer. -/
def ringing : State := (engines [(0x10000, 5), (0x10008, 1), (0x10010, 4)]).modQueue 0 0 fun _ =>
  bindQueue [0x80000, 0x90000, 0, 0] 4 1 0 2 0

def ran : State := ringing.modChan 0 0 fun x => { x with cur := some ⟨⟨⟨7, #v[0xC013, 0, 0, 0, 0, 0, 0, 0], none, false, 0, true, none, []⟩, 0, 0, false, 0, 0⟩, some 0, none⟩ }

theorem wit_LadlePacketsArePerformed_queue : (ringing.queue 0 0).bound = true ∧
    okAnd (ringing.unitPlace 0 0 2 .load 0x90040) (fun key => decide (ringing.stuck = none) && decide (ringing.waitsAt key 8 = none) &&
      !ringing.retiredAt key && !ringing.unreachable key) = true ∧
    (ran.chan 0 0).cur.any (fun p => decide (p.queue = some 0) && decide (p.started.cause = 0) && !p.started.poison &&
      decide ((ladReplyTo p.started.cmd.w).rkind = 3)) = true ∧
    okAnd (ran.unitPlace 0 0 2 .store (ran.queue 0 0).cb) (fun key => decide (ran.stuck = none) && decide (ran.waitsAt key 32 = none)) = true ∧
    Sound ringing ∧ (ran.chan 0 0).cur.any (fun p => decide (p.work = none)) = true := by
  refine ⟨by decide +kernel, by decide +kernel, by decide +kernel, by decide +kernel, sound_of (by decide +kernel), by decide +kernel⟩

/-- A NOP of slot 0 has run. -/
def finished : State := (engines []).modChan 0 0 fun x =>
  { x with cur := some ⟨⟨⟨7, #v[0x13, 1, 0, 0, 0, 0, 0, 0], some ⟨0, 1, 0x10000, 0⟩, true, 0, true, none, []⟩, 0, 0, false, 0, 0⟩, none, none⟩ }

theorem wit_LadlePacketsArePerformed_replied : finished.stuck = none ∧ ((finished.chan 0 0).cur.any fun p => decide (p.work = none) && decide (p.queue = none) &&
    decide (p.started.cause = 0) && decide ((ladReplyTo p.started.cmd.w).rkind = 0) && p.started.cmd.issuer.any fun i =>
      (finished.ctx i.core (ladReplyTo p.started.cmd.w).ctxid).any fun y => decide (y.loc = .slot 0) && decide ((finished.slot 0).status = .live)) = true := by
  decide +kernel

/-- R311: RDIDX moves on. -/
theorem test_queue : (after (.ladleReply 0 0) ran).loadLE (pad + 0x10008) 8 = 2 := by decide +kernel

/-! ### Witnesses: the Runner -/

/-- A privileged command of no issuer: OPC and F, and its addresses. -/
def runCmd (opf addr0 addr1 : Nat) : Cmd :=
  ⟨9, #v[BitVec.ofNat 64 (2 ^ 25 + opf), 0, BitVec.ofNat 64 addr0, BitVec.ofNat 64 addr1, 0, 0, 0, 0], none, false, 0, true, none, []⟩

/-- Communicator 0 of dies 0 and 1, ranks 0 and 1 of group 0, with a plan of one op and a second one behind it. -/
def joined (o : PlanOp) (timeout : Nat) (mine peer : Comm → Comm) : State :=
  let c : Comm := { Comm.reset with
    bound := true, ranks := [0, 1], stg := 1, pops := 2, chunk := 8, timeout := timeout
    plan := some ⟨2, 0, [3, 3], [o, ⟨3, 0, 0, 0, 1, [], 0, 0, 0, 0, 0⟩]⟩, playNo := 1 }
  ((engines [(0, 1), (0x10000, 0x502)]).modComm 0 0 fun _ => mine c).modComm 1 0 fun _ => peer { c with rank := 1 }

/-- Its play, with the first op in a state. -/
def atPlay (first : OpState) (c : Comm) : Comm :=
  { c with play := some ⟨runCmd 0x56 0x20000 0, 1, 0, [(0x20000, 4096), (0x80000, 4096)], [first, .waiting 1 0 0], none⟩ }

def playing (o : PlanOp) : State := joined o 0 (atPlay (.waiting 0 0 0)) id

def chunkOf (kind : ChunkKind) (src dst : Nat) : Chunk := ⟨kind, src, src, dst, dst, 0, 0, 0, 1, 0, .replicate 8 (3, false)⟩

/-- A communicator that is bound and planned and has these commands in its inbox, and the control inbox with one. -/
def idling (l : List Cmd) (ctl : List Cmd) : State :=
  (joined ⟨3, 0, 0, 0, 0, [], 0, 0, 0, 0, 0⟩ 0 (fun c => { c with inbox := l }) id).modDie 0 fun d => { d with control := ctl }

/-- The footprint of a play's commit record can be translated, and what is read of its tables waits for nothing. -/
def commits (s : State) (cmd : Cmd) (plan : Plan) : Bool :=
  let s' := (s.dropHead 0 0).modComm 0 0 fun y => { y with playNo := y.playNo + 1 }
  okAnd (s'.playRecord 0 cmd) fun e => decide (e.2.1 = 0x20040) &&
    okAnd (if e.2.1 = 0 then .ok ⟨[], 0, 0, []⟩ else e.1.playFoot 0 (s'.comm 0 0) (runClass cmd.w) .store e.2.1.toNat ((plan.ops.length + 7) / 8))
      fun f => decide ((e.1.openFoot (s'.comm 0 0) f).stuck = none)

/-- The group table stands in the scratchpad, where no row opens. -/
theorem wit_RunnerActs_commands :
    (let s := { world with net := { world.net with posts := [⟨4, .runner 0, (runCmd 0x55 0 0).w, none, 0, 0, none, none⟩] } }
     s.stuck = none ∧ ((s.net.posts[0]?).any fun p => decide (p.due = none) && decide (p.inbox = .runner 0) && runPriv p.w && decide (runRkind p.w < 2) &&
       decide ((s.runInbox 0 (if runControl p.w then 4 else runComm p.w)).length < 4)) = true) ∧
    (let s := ((((((engines [(0, 0x400000), (8, 2 ^ 24 + 2 ^ 33 + 2 ^ 51)]).storeLE (loadBase + 0x91010) 8 0xF8000000D7).storeLE
        (pad + 0x30000) 2 2).storeLE (pad + 0x30004) 1 1).storeLE (pad + 0x30044) 4 0x10000).modModule fun m =>
        { m with gtb := BitVec.ofNat 64 (pad + 0x30000) }).modDie 0 fun d => { d with control := [runCmd 0x57 0x80000 0x20000] }
     s.stuck = none ∧ ((s.runInbox 0 4).head?.any fun cmd => decide (runF cmd.w = 0) && okAnd (s.kcommBind 0 cmd) (fun e => decide (e.2 = 0)) &&
       decide ((s.runServe 0 4 cmd (s.kcommBind 0 cmd)).stuck = none)) = true) ∧
    ([idling [] [runCmd 0x157 0x80000 0], idling [{ runCmd 0x56 0 0 with id := 10 }] [runCmd 0x157 0x80000 0]].all fun s =>
       decide (s.stuck = none) && (s.runInbox 0 4).head?.any fun cmd => decide (runF cmd.w = 1) && decide (runComm cmd.w = 0) && !(s.comm 0 0).before cmd &&
       (s.comm 0 0).bound && (s.comm 0 0).admits cmd.w && decide ((s.runServe 0 4 cmd (.ok (s.kcommFree 0 0 cmd))).stuck = none)) = true ∧
    (let s := idling [{ runCmd 0x56 0 0 with id := 8 }] [runCmd 0x157 0x80000 0]
     decide (s.stuck = none) && (s.comm 0 0).before (runCmd 0x157 0x80000 0)) = true ∧
    (let s := idling [{ runCmd 0x56 0 0 with id := 10 }] [runCmd 0x157 0x80000 0]
     decide (s.stuck = none) && s.behind 0 0 { runCmd 0x56 0 0 with id := 10 }) = true ∧
    (let s := ((idling [runCmd 0x55 0x80000 0x20000] []).storeLE pad 8 (0x014C504B + 2 ^ 32 + 2 ^ 48)).storeLE (pad + 8) 8 1
     let s := s.storeLE (pad + 64) 8 3
     s.stuck = none ∧ ((s.runInbox 0 0).head?.any fun cmd => decide (runOpc cmd.w = 0x55) && !s.behind 0 0 cmd &&
       okAnd (s.kplan 0 0 cmd) (fun e => decide (e.2 = 1)) && decide ((s.runServe 0 0 cmd (s.kplan 0 0 cmd)).stuck = none)) = true) ∧
    (let s := (idling [runCmd 0x56 0x20000 0] []).storeLE (pad + 8) 8 0x20040
     s.stuck = none ∧ ((s.runInbox 0 0).head?.any fun cmd => decide (runOpc cmd.w = 0x56) && decide (runF cmd.w < 2) && !s.behind 0 0 cmd &&
       (s.comm 0 0).plan.any (fun plan => commits s cmd plan) &&
       (s.comm 0 0).admits cmd.w && decide ((s.comm 0 0).aborts = []) && !s.lostRank (s.comm 0 0)) = true) := by
  and_intros <;> decide +kernel

/-- The op that the idle Runner chooses, in a state of these operands. -/
def picked (s : State) (o : PlanOp) : Bool := decide (s.stuck = none) && decide (s.chosenOp 0 = none) &&
  decide ((s.chooseOp 0).chosenOp 0 = some (0, 0, o)) &&
  (s.comm 0 0).play.any fun p => decide (p.abort = none) && decide (p.ops[1]? = some (.waiting 1 0 0))

def withPlay (s : State) (f : State → Comm → Play → Bool) : Bool :=
  let v := (s.chooseOp 0).modDie 0 fun d => { d with chosen := none }
  (s.comm 0 0).play.any fun p => f v (v.comm 0 0) p

def theWait : PlanOp := ⟨3, 0, 0, 0, 0, [1], 0, 0, 0, 0, 0⟩
def theSend : PlanOp := ⟨0, 0, 0, 0, 0, [1], 1, 0, 0, 8, 0⟩
def theCast : PlanOp := ⟨2, 0, 0, 0, 0, [1], 0, 0, 0, 8, 0⟩
def theRecv : PlanOp := ⟨1, 0, 0, 1, 0, [1], 1, 0, 0, 8, 0⟩
def theAlign : PlanOp := ⟨4, 0, 1, 0, 0, [1], 0, 0, 0, 64, 0⟩

def receiving : State := joined theRecv 0 (fun c => { atPlay (.waiting 0 0 0) c with staged := [chunkOf .data 1 0] }) id

theorem wit_RunnerActs_ops : picked (playing theWait) theWait = true ∧
    (picked (playing theSend) theSend && withPlay (playing theSend) fun v x p =>
      okAnd (v.bufferBytes 0 x p 0 0 8) (fun e => decide (e.1.stuck = none)) && decide (x.targets theSend = [1])) = true ∧
    (picked (playing theCast) theCast && withPlay (playing theCast) fun v x p =>
      okAnd (v.bufferBytes 0 x p 0 0 8) (fun e => decide (e.1.stuck = none)) && decide (x.targets theCast = [1])) = true ∧
    (picked receiving theRecv && withPlay receiving fun v x p => (x.arrived theRecv p.key).any fun ch => decide (ch.data.length = 8) &&
      let r := ((v.modComm 0 0 fun y => { y with staged := y.staged.filter fun z => z ≠ ch }).modNet fun n =>
        { n with credits := n.credits ++ [{ ch with data := [] }] }).bufferWrite 0 x p 1 0 ch.data
      decide (r.2 = none) && decide (r.1.stuck = none)) = true ∧
    (picked (playing theAlign) theAlign && withPlay (playing theAlign) fun v x p => okAnd (v.bufferBytes 0 x p 0 0 64) fun a =>
      okAnd (a.1.bufferBytes 0 x p 1 0 2) fun b => (alignBlocks 0 1 a.2 b.2).any fun r =>
        let u := b.1.bufferWrite 0 x p 0 0 r.1
        let u' := u.1.bufferWrite 0 x p 1 0 r.2
        decide (u.2 = none) && decide (u'.2 = none) && decide (u'.1.stuck = none)) = true ∧
    ((playing theWait).chooseOp 0).chosenOp 0 ≠ none := by and_intros <;> decide +kernel

/-- R331: the bytes received stand in buffer 1. -/
theorem test_runner : (after (.runnerRecvOp 0) (receiving.chooseOp 0)).loadLE (pad + 0x10000) 8 = 0x0303030303030303 := by decide +kernel

/-- The play with its first op completed and the last one chosen. -/
def lastOp (commit : Word) (abort : Option (BitVec 10 × Nat)) (i : Option Issuer) : State :=
  ((playing theWait).modComm 0 0 fun c => { c with play := c.play.map fun p =>
    { p with ops := [.completed, .waiting 0 0 0], commit := commit, abort := abort, cmd := { p.cmd with w := p.cmd.w.set 1 1, issuer := i } } }).modDie 0
      fun d => { d with chosen := some (0, 1) }

/-- With a commit bitmap of one byte at 0x80000 and without; STATUS is the word at 0x20000. -/
theorem wit_RunnerActs_ends : ∀ commit ∈ ([0, 0x80000] : List Word), let s := lastOp commit none (some ⟨0, 1, 0x10000, 0⟩)
    let v := s.modDie 0 fun d => { d with chosen := none }
    s.stuck = none ∧ Sound s ∧ s.mayWait = false ∧ s.chosenOp 0 = some (0, 1, ⟨3, 0, 0, 0, 1, [], 0, 0, 0, 0, 0⟩) ∧
    ((s.comm 0 0).play.any fun p => decide (p.abort = none) && decide (p.ops[0]? = some .completed) && decide (p.ops.length = 2) &&
      decide (p.commit = commit) && decide ((runReplyTo p.cmd.w).rkind = 0) && decide (p.cmd.issuer = some ⟨0, 1, 0x10000, 0⟩) &&
      (s.ctx 0 (runReplyTo p.cmd.w).ctxid).any (fun y => decide (y.loc = .slot 0)) && decide ((s.slot 0).status = .live) &&
      okAnd (if commit = 0 then .ok ⟨[], 0, 0, []⟩ else v.playFoot 0 (v.comm 0 0) (runClass p.cmd.w) .store commit.toNat ((p.ops.length + 7) / 8)) fun f =>
        (f.pieces.all fun q => decide (v.pieceCause q = none)) && decide ((pieceKeys f.pieces).Nodup) &&
        let u := if commit = 0 then v else v.writeFoot (v.comm 0 0) f (commitBytes (putAt p.ops 1 .completed))
        okAnd (u.translate 0 (runAsid p.cmd.w) (runClass p.cmd.w) .store (runAddr0 p.cmd.w)) fun z => decide (z.tt = 1)) = true := by
  intro commit hc
  simp only [List.mem_cons, List.not_mem_nil, or_false] at hc
  rcases hc with rfl | rfl <;> exact ⟨by decide +kernel, sound_of (by decide +kernel), by decide +kernel, by decide +kernel, by decide +kernel⟩

theorem wit_RunnerActs_ends_aborted : let s := lastOp 0 (some (0x330, 1)) none
    let v := s.modDie 0 fun d => { d with chosen := none }
    s.stuck = none ∧ Sound s ∧ s.mayWait = false ∧ s.chosenOp 0 = some (0, 1, ⟨3, 0, 0, 0, 1, [], 0, 0, 0, 0, 0⟩) ∧
    ((s.comm 0 0).play.any fun p => decide (p.abort = some (0x330, 1)) && decide (p.commit = 0) && decide (p.cmd.issuer = none) &&
      decide (p.ops[0]? = some .completed) && decide (p.ops.length = 2) &&
      okAnd (v.translate 0 (runAsid p.cmd.w) (runClass p.cmd.w) .store (runAddr0 p.cmd.w)) fun z => decide (z.tt = 1)) = true :=
  ⟨by decide +kernel, sound_of (by decide +kernel), by decide +kernel, by decide +kernel, by decide +kernel⟩

/-- Two communicators with an eligible op: one passed over 64 times, one of higher priority; and an op that runs. -/
def rivals (passed : Nat) : State := ((playing theWait).modComm 0 1 fun _ => { (playing theWait).comm 0 0 with prio := 3 }).modComm 0 0 fun c =>
  { c with passed := passed }

theorem eligible_of {s : State} {die c i : Nat} {o : PlanOp} (h : o.kind = 3 ∧ ((s.comm die c).play.any fun p => decide (p.abort = none) &&
    (s.comm die c).plan.any (fun plan => decide (plan.ops[i]? = some o)) && match p.ops[i]? with | some (.waiting 0 _ _) => true | _ => false) = true) :
    Eligible s die c i o := by
  obtain ⟨hk, h⟩ := h
  simp only [Option.any_eq_true, Bool.and_eq_true, decide_eq_true_eq] at h
  obtain ⟨p, hp, ⟨ha, plan, hl, ho⟩, h⟩ := h
  split at h
  · next a b he => exact ⟨p, plan, a, b, hp, ha, hl, ho, he, by omega, by omega⟩
  · simp at h

theorem wit_RunnerActs_arbitration :
    (playing theWait).stuck = none ∧ ((playing theWait).chooseOp 0).chosenOp 0 = some (0, 0, theWait) ∧ (rivals 64).chosenOp 0 = none ∧
    (rivals 64).runnerBusy 0 = false ∧ Eligible (rivals 64) 0 0 0 theWait ∧ Eligible (rivals 64) 0 1 0 theWait ∧
    (rivals 64).pickOp 0 = some (0, 0, theWait) ∧ 64 ≤ ((rivals 64).comm 0 0).passed ∧ (rivals 63).pickOp 0 = some (1, 0, theWait) ∧
    ((rivals 63).comm 0 1).passed < 64 ∧ ((rivals 63).comm 0 0).prio ≤ ((rivals 63).comm 0 1).prio ∧
    (joined theWait 0 (atPlay (.started 1)) id).runnerBusy 0 = true :=
  ⟨by decide +kernel, by decide +kernel, by decide +kernel, by decide +kernel, eligible_of (by decide +kernel), eligible_of (by decide +kernel),
   by and_intros <;> decide +kernel⟩

/-- R336: those passed over count it. -/
theorem test_arbitration : (((rivals 63).chooseOp 0).comm 0 0).passed = 64 ∧ (((rivals 63).chooseOp 0).die 0).turn = 2 := by decide +kernel

/-- R335: STATUS of a play of two ops that has ended, and its bead. -/
theorem test_playEnd : gives (.runnerWaitOp 0) (lastOp 0x80000 none none) (fun t => decide (t.loadLE pad 8 = 2 ^ 62 + 2) &&
    decide (t.loadLE (pad + 0x10000) 1 = 3) && decide ((t.comm 0 0).play = none)) = true := by decide +kernel

def netWith (s : State) (f : Net → Net) : State := { s with net := f s.net }

theorem wit_RunnerActs_traffic :
    (let s := netWith (joined theSend 1 (atPlay (.started 2)) id) fun n => { n with chunks := [chunkOf .copy 0 1] }
     s.stuck = none ∧ s.passing s.net.chunks 0 = some (chunkOf .copy 0 1) ∧ s.peerComm 0 1 0 1 = some (1, s.comm 1 0)) ∧
    (let s := netWith (joined theSend 0 id (atPlay (.waiting 0 0 0))) fun n => { n with chunks := [chunkOf .data 0 1] }
     s.stuck = none ∧ s.passing s.net.chunks 0 = some (chunkOf .data 0 1) ∧ s.peerComm 0 1 0 1 = some (1, s.comm 1 0) ∧ (s.comm 1 0).playNo = 1 ∧ (s.comm 1 0).play.isSome = true ∧ (s.comm 1 0).timeout = 0) ∧
    (let s := netWith (joined theSend 0 (atPlay (.started 2)) id) fun n => { n with acks := [chunkOf .data 0 1], credits := [chunkOf .data 0 1] }
     s.stuck = none ∧ s.passing s.net.acks 0 = some (chunkOf .data 0 1) ∧ s.passing s.net.credits 0 = some (chunkOf .data 0 1) ∧ s.peerComm 0 0 0 0 = some (0, s.comm 0 0) ∧ ((s.comm 0 0).play.any fun p => decide (p.key = 1)) = true ∧
     (s.comm 0 0).opsOf.find? (fun e => e.1 = 0) = some (0, theSend, .started 2)) ∧
    (let s := { joined theRecv 1 (atPlay (.waiting 0 0 0)) id with ns := 1000 }
     s.stuck = none ∧ ((s.waitingRecv 0 0 0).any fun e => decide (e.2.1 = 0) && decide (e.2.2.1 = 0) && decide (e.2.2.2.1.buddy 1 = some 0)) = true) ∧
    (let s := { joined theRecv 1 (atPlay (.waiting 0 0 5)) id with ns := 2000 }
     ((s.waitingRecv 0 0 0).any fun e => decide (e.2.2.1 = 5) && decide (5 + 1000 * e.2.2.2.1.timeout ≤ s.ns + 1)) = true ∧
     ((s.waitingRecv 0 0 0).any fun e => (e.2.2.2.1.buddy e.1.peer).all fun b => !s.copyComes (e.2.2.2.1.askOf 0 e.1 e.2.2.2.2 0 b)) = true ∧
     (s.abortPlay 0 0 0x331 (s.comm 0 0).rank true).stuck = none) ∧
    (let s := netWith (joined theSend 1 id id) fun n => { n with asks := [chunkOf .answer 0 1] }
     s.stuck = none ∧ s.passing s.net.asks 0 = some (chunkOf .answer 0 1) ∧ s.copyFor (chunkOf .answer 0 1) = none) ∧
    (let s := netWith (joined theSend 1 id fun c => { c with copies := [chunkOf .copy 0 1] }) fun n => { n with asks := [chunkOf .answer 0 1] }
     s.stuck = none ∧ s.passing s.net.asks 0 = some (chunkOf .answer 0 1) ∧ s.peerComm 0 1 0 1 = some (1, s.comm 1 0) ∧ ((s.comm 1 0).copies.find? fun q => decide (q.rank = 0) && decide (q.toRank = 1) &&
       decide (q.slot = 0) && decide (q.play = 1)) = some (chunkOf .copy 0 1)) ∧
    (let s := netWith (joined theSend 0 (atPlay (.started 2)) id) fun n => { n with tokens := [⟨0, 0, 0, 0, 1, 0x330, 1⟩, ⟨1, 1, 0, 0, 2, 0x330, 0⟩] }
     s.stuck = none ∧ s.module.down = [] ∧ s.peerComm 0 0 0 0 = some (0, s.comm 0 0) ∧
     ((s.comm 0 0).play.any fun p => decide (p.abort = none) && decide (p.key = 1)) = true ∧
     ((s.modNet fun q => { q with tokens := q.tokens.eraseIdx 0 }).abortPlay 0 0 0x330 1 false).stuck = none ∧
     s.peerComm 0 1 0 1 = some (1, s.comm 1 0) ∧ (s.comm 1 0).play = none ∧ (s.comm 1 0).playNo < 2) := by
  and_intros <;> decide +kernel

/-- KABRT without and with a play. -/
theorem wit_RunnerActs_abort : Ready (worldWith (s1 0)) 0 [49] 0 2 ∧ ((worldWith (s1 0)).slot 0).cls ≠ 1 ∧ ((worldWith (s1 0)).comm 0 0).bound = false ∧
    (let s := joined theSend 0 id id
     Ready s 0 [49] 0 2 ∧ (s.comm 0 0).bound = true ∧ (s.comm 0 0).play = none ∧ 2 ≤ (s.slot 0).cls.toNat) ∧
    (let s := joined theSend 0 (atPlay (.started 2)) id
     Ready s 0 [49] 0 2 ∧ ((s.slot 0).read (.s 1)).toNat % 4 = 0 ∧ (s.comm 0 0).bound = true ∧ 2 ≤ (s.slot 0).cls.toNat ∧
     ((s.comm 0 0).play.any fun p => decide (p.abort = none)) = true ∧ ((s.abortPlay 0 0 0x330 (s.comm 0 0).rank true).slot 0).status = .live ∧ (s.abortPlay 0 0 0x330 (s.comm 0 0).rank true).stuck = none) :=
  ⟨ready_of (by decide +kernel), by decide +kernel, by decide +kernel, ⟨ready_of (by decide +kernel), by decide +kernel⟩, ready_of (by decide +kernel),
   by and_intros <;> decide +kernel⟩

/-! ### Witnesses: the memory stacks, the Reckoners and the system die -/

/-- Stack 0 with ECC conditions, `n` errors counted in the row of word 0, that row failed or not, spares, the bank of word 0 out
of service or not, failed channels and a retirement log of `cap` entries. -/
def failing (ecc : AMap Ecc) (n : Nat) (bad : Bool) (rows : BitVec 16) (banks : BitVec 8) (out : Bool) (failed : BitVec 32) (cap : BitVec 16) : State :=
  (world.modStack 0 fun t => { t with
    ecc := ecc, rowErr := [(Config.dramRow 0, n)], rowsBad := if bad then [(world.bankOf 0, Config.dramRow 0)] else []
    banks := banks, failed := failed, rows := rows, lanes := 1, bankOut := if out then [world.bankOf 0] else [] }).modModule fun m =>
      { m with rlogCap := cap }

/-- A machine whose stacks hold nothing, with no path down and no request, is quiet. -/
theorem quiet_of {s : State} (hd : s.module.down = []) (hr : s.net.reqs = []) (hh : ∀ j, (s.stack j).holds = []) : Quiet s :=
  ⟨hd, by simp [hr], fun w => by simp [State.heldWord, hh]⟩

theorem world_holds (j : Nat) : (world.stack j).holds = [] := by
  have h : ∀ i : Fin 8, world.hbm[i].holds = [] := by decide +kernel
  exact h (ix 8 j)

theorem world_quiet : Quiet world := quiet_of (by decide +kernel) (by decide +kernel) world_holds

theorem failing_quiet (ecc : AMap Ecc) (n : Nat) (bad : Bool) (rows : BitVec 16) (banks : BitVec 8) (out : Bool) (failed : BitVec 32) (cap : BitVec 16) :
    Quiet (failing ecc n bad rows banks out failed cap) := by
  unfold failing
  refine ((StaysQuiet.modModule ?_ _ rfl) world_quiet).1
  apply (StaysQuiet.refl world).modStack <;> exact fun _ => rfl

/-- What a scrub asks, met for either value of the free one that says whether the bank shows a fault (R361): a word in no error; a
correctable one whose row has few errors, or 15 and has failed or not, with spares and without, and a log with and without
room; one served by rebuilding; one that is lost. -/
theorem wit_MemoryStacksAct_scrub (ecc : AMap Ecc) (n : Nat) (bad : Bool) (rows : BitVec 16) (banks : BitVec 8) (out : Bool) (failed : BitVec 32) (cap : BitVec 16) :
    let s := failing ecc n bad rows banks out failed cap
    let u := s.activate (s.own (8 * 0))
    let x := u.stack 0
    s.stuck = none ∧ stackOf (8 * 0) = 0 ∧ 8 * 0 < hbmTop ∧ s.heldWord 0 = false ∧ s.poison.contains (s.own (8 * 0) / 8) = false ∧
      (ecc = [] → x.eccAt 0 = none) ∧ (ecc = [(0, .correctable)] → x.eccAt 0 = some .correctable) ∧
      (ecc = [] ∨ ecc = [(0, .correctable)] → out = false → failed = 0 → s.wordOut 0 = false) ∧
      AMap.get 0 (x.errors s.ns) (Config.dramRow 0) = n ∧ x.rowDown (s.bankOf (8 * 0)) (Config.dramRow 0) = bad ∧
      x.rows = rows ∧ AMap.get 0 x.rowFail (s.bankOf (8 * 0)) ≠ 3 ∧
      (out = true → s.wordOut 0 = true ∧ (ecc = [] → failed = 0 → s.rebuildable 0 = true) ∧ (failed = 0xFF → s.rebuildable 0 = false)) ∧
      x.banks = banks ∧ (out = false → x.bankOut.contains (s.bankOf (8 * 0)) = false) ∧ s.module.rlogCap = cap ∧ (u.resolveWord 0).stuck = none := by
  intro s u x
  have hw : (world.stack 0).failed = 0 ∧ (world.stack 0).rebuild = 0 ∧ (world.stack 0).errPeriod = 0 ∧ (world.stack 0).rowFail = [] ∧
      (world.stack 0).holds = [] ∧ world.ns = 0 ∧ world.poison = [] ∧ world.stuck = none := by and_intros <;> decide +kernel
  obtain ⟨-, h2, h3, h4, h5, h6, h7, h8⟩ := hw
  have hs : s.stack 0 = { world.stack 0 with
    ecc := ecc, rowErr := [(Config.dramRow 0, n)], rowsBad := if bad then [(world.bankOf 0, Config.dramRow 0)] else []
    banks := banks, failed := failed, rows := rows, lanes := 1, bankOut := if out then [world.bankOf 0] else [] } := by
    rw [show s = failing ecc n bad rows banks out failed cap from rfl, failing, State.modModule_stack, State.stack_modStack, if_pos rfl]
  have hb : s.bankOf 0 = world.bankOf 0 := by
    simp only [State.bankOf, State.ccGranule, show stackOf 0 = 0 from rfl, hs]
  have hu : SameButActs s u := s.activate_same _
  obtain ⟨a, hx⟩ : ∃ a, x = { s.stack 0 with acts := a } := hu.stack 0
  have hns : s.ns = 0 := (State.modModule_ns _ _).trans ((State.modStack_ns _ _ _).trans h6)
  have hq : Quiet s := failing_quiet ecc n bad rows banks out failed cap
  have hp : s.poison = [] := (State.modModule_poison _ _).trans ((State.modStack_poison _ _ _).trans h7)
  have hst : s.stuck = none := (State.modModule_stuck _ _).trans ((State.modStack_stuck _ _ _).trans h8)
  refine ⟨hst, rfl, by norm_num [hbmTop], hq.held 0, by rw [hp]; rfl, ?_, ?_, ?_, ?_, ?_, ?_, ?_, ?_, ?_, ?_, rfl, ?_⟩
  · rintro rfl; simp [hx, hs, Stack.eccAt]
  · rintro rfl; simp [hx, hs, Stack.eccAt]
  · rintro he rfl rfl
    rcases he with rfl | rfl <;> simp [State.wordOut, show stackOf 0 = 0 from rfl, hs, Stack.eccAt, Stack.chanOut, h2]
  · simp [hx, hs, Stack.errors, Stack.period, hns, h3, AMap.get]
  · simp only [hx, hs, Stack.rowDown, h5, hb]
    cases bad <;> simp
  · simp [hx, hs]
  · simp [hx, hs, h4]
  · rintro rfl
    refine ⟨by simp [State.wordOut, show stackOf 0 = 0 from rfl, hs, hb], ?_, ?_⟩
    · rintro rfl rfl
      simp [State.rebuildable, State.parityOut, State.mateOut, show stackOf 0 = 0 from rfl, hs, hb, Stack.eccAt, Stack.chanOut, h2, hp, hbmEnd]
    · rintro rfl
      have : (s.stack 0).chanOut (parityChan 0) = true := by rw [hs]; simp only [Stack.chanOut, h2]; decide
      simp [State.rebuildable, State.parityOut, show stackOf 0 = 0 from rfl, this, hbmEnd]
  · simp [hx, hs]
  · rintro rfl; simp [hx, hs]
  · have hqu := hu.sameHolds.quiet hq
    exact ((StaysQuiet.refl u).resolveWord 0 hqu.1).2.trans (hqu.2.trans hst)

/-- The last word of parity is scrubbed too. -/
theorem wit_MemoryStacksAct_parity : 8 * (hbmTop / 8 - 1) < hbmTop ∧ hbmEnd ≤ 8 * (hbmTop / 8 - 1) ∧ stackOf (8 * (hbmTop / 8 - 1)) = 7 := by
  decide

/-- A channel being rebuilt while a bank is out: what cannot be rebuilt is marked. -/
def rebuilding : State := world.modStack 0 fun t => { t with rebuild := 8, bankOut := [world.bankOf 0] }

theorem wit_MemoryStacksAct_rebuild : bit (rebuilding.stack 0).rebuild 3 = true ∧ rebuilding.rebuilds 0 3 = false ∧ (rebuilding.stack 0).ecc = [] ∧
    (((rebuilding.unrebuilt 0 3).foldl State.markLost rebuilding).resolveWhere 0 fun w => chanOf w = 3).stuck = none := by
  have hq : Quiet rebuilding := by
    unfold rebuilding
    refine (?_ : StaysQuiet world _) world_quiet |>.1
    apply (StaysQuiet.refl world).modStack <;> exact fun _ => rfl
  have hs : rebuilding.stuck = none := by decide +kernel
  refine ⟨by decide +kernel, by decide +kernel, by decide +kernel, ?_⟩
  exact (((StaysQuiet.refl rebuilding).foldl State.markLost _ fun _ w g => g.markLost w).foldl State.resolveWord _ (fun _ w g => g.resolveWord w) hq).2.trans hs

/-- A row that has reached the threshold, with its bank under repair or not; and no activation. -/
def hot (l : List Hold) : State := world.modStack 0 fun t => { t with acts := [(actKey 2 5, Config.activations 0)], holds := l }

theorem wit_MemoryStacksAct_alert (l : List Hold) : (actKey 2 5, Config.activations 0) ∈ ((hot l).stack 0).acts ∧ Config.activations 0 ≤ Config.activations 0 ∧
    ((hot l).stack 0).holds = l ∧ (∀ h ∈ ([] : List Hold), h.kind = .bank → h.region ≠ 2) ∧ (∃ h ∈ [(⟨.bank, 2, 0, 0, 0⟩ : Hold)], h.kind = .bank ∧ h.region = 2) ∧
    (world.stack 0).acts = [] :=
  ⟨List.mem_singleton.mpr rfl, Nat.le_refl _, rfl, by simp, by simp, by decide +kernel⟩

/-- R367: a row at the threshold holds its bank for 4 µs. -/
theorem test_alert (t : Stack) (h : t.holds = []) : (t.alert 0 7 3 (actKey 2 5)).holds = [⟨.alert, 2, 4007, 0, 3⟩] := by
  simp [Stack.alert, h, actKey, us]

/-- A hold that is due at 5 ns, at 0, 5 or 6 ns, with a bank behind by the limit and a channel being rebuilt. -/
def heldBack (kind : HoldKind) (ns : Nat) : State :=
  { world with ns := ns }.modStack 0 fun t => { t with lanes := 1, holds := [⟨kind, 3, 5, 0, 0⟩], rebuild := 8, defer := [(2, Config.postponeLimit 0)] }

/-- Refreshes, whichever way the free value says whether one is postponed; repairs; a channel rebuilt or not. -/
theorem wit_MemoryStacksAct : Config.postponeLimit 0 ≤ AMap.get 0 ((heldBack .lane 0).stack 0).defer 2 ∧
    (0 < Config.postponeLimit 0 → AMap.get 0 (world.stack 0).defer 2 < Config.postponeLimit 0) ∧
    ((heldBack .lane 0).stack 0).lanes ≠ 0 ∧ (world.stack 0).lanes = 0 ∧
    ((heldBack .lane 0).stack 0).holds[0]? = some ⟨.lane, 3, 5, 0, 0⟩ ∧ (heldBack .lane 0).ns ≤ 5 ∧ (heldBack .bank 5).ns ≤ 5 ∧ 5 < (heldBack .bank 6).ns ∧
    ((heldBack .bank 6).stack 0).holds[0]? = some ⟨.bank, 3, 5, 0, 0⟩ ∧
    ((heldBack .alert 0).stack 0).holds[0]? = some ⟨.alert, 3, 5, 0, 0⟩ ∧ bit ((heldBack .lane 0).stack 0).rebuild 3 = true ∧
    (heldBack .lane 0).rebuilds 0 3 = true ∧ ([.row, .lane, .bank].all fun k => decide ((((heldBack k 0).endHold 0 0).repaired 0 ⟨k, 3, 5, 0, 0⟩).stuck = none)) = true ∧
    ((((heldBack .lane 0).unrebuilt 0 3).foldl State.markLost (heldBack .lane 0)).resolveWhere 0 fun w => chanOf w = 3).stuck = none ∧ bit (world.stack 0).rebuild 3 = false := by
  refine ⟨?_, ?_, by and_intros <;> decide +kernel⟩
  · show Config.postponeLimit 0 ≤ AMap.get 0 [(2, Config.postponeLimit 0)] 2
    simp [AMap.get]
  · intro h
    rwa [show AMap.get 0 (world.stack 0).defer 2 = 0 by decide +kernel]

/-- R362: a repair past its bound is told with 0x381. -/
theorem test_stack : gives (.repairTimeout 0 0) (heldBack .lane 6) (fun t => decide ((t.stack 0).holds = []) &&
    t.net.flights.any fun m => decide (bits m.msg.pay[0] 9 0 = 0x381)) = true := by decide +kernel

/-- A command of a Reckoner in the queue of the bank set of 0x6FFC000000, issued by the running actor. -/
def queueing (y : Query) : State := (engines [(0, 0x4000)]).setQueue (setOf 0x6FFC000000) [y]

def reckoned (w : Vector Word 8) (limit : Nat) : Query :=
  ⟨⟨7, w, some ⟨0, (world.slot 0).ctxid, 0x10000, 0⟩, true, 0, true, none, [(0, 0x200000, 2 ^ 21), (0, 0x20000, 4)]⟩, [], 0x6FFC000C17, 0x6FFC000C17,
    limit, 4, false, 0, [], []⟩

/-- QAPND of one row of one element at 0x20000. -/
def appending (f : Nat) : Query := reckoned ((world.slot 0).appendWords 0 f 0x6FFC000000 1 0 (((engines []).slot 0).handle 10)) 32

/-- What `IssuerLives` asks, as a check. -/
theorem lives_of {s : State} {core : Nat} {id : BitVec 32} (n : Fin 8) (h : ((s.ctx core id).any fun x => decide (x.loc = .slot n) &&
    decide ((s.slot (slotKey core n.val)).status = .live)) = true) : IssuerLives s core id := by
  simp only [Option.any_eq_true, Bool.and_eq_true, decide_eq_true_eq] at h
  obtain ⟨x, hx, hl, hs⟩ := h
  exact ⟨x, n, hx, hl, hs⟩

theorem wit_ReckonersAct_appends : ∀ f < 3,
    let s := queueing (appending f)
    let y := appending f
    s.stuck = none ∧ (rkReplyTo y.cmd.w).rkind = 0 ∧ IssuerLives s (rkCore y.cmd.w) (rkReplyTo y.cmd.w).ctxid ∧
    s.arrivingQuery (setOf 0x6FFC000000 * 8) 0x5A (some f) = some y ∧
    s.rowCount y.keys.pa + bits y.cmd.w[4] 15 0 ≤ y.limit ∧ y.limit < 2 ^ 32 ∧ s.appendRetired y (s.rowCount y.keys.pa) (bits y.cmd.w[4] 15 0) = none ∧
    2 * y.keys.cols ≤ y.keys.rb ∧ (y.limit + 31) / 32 * y.keys.rb ≤ 0x10000 ∧ (s.append (setOf 0x6FFC000000) y true).stuck = none := by
  intro f hf
  obtain rfl | rfl | rfl : f = 0 ∨ f = 1 ∨ f = 2 := by omega
  all_goals exact ⟨by decide +kernel, by decide +kernel, lives_of 0 (by decide +kernel), by and_intros <;> decide +kernel⟩

/-- R382: the row's element, and one row more. -/
theorem test_append : gives (.qapndPutCmd (setOf 0x6FFC000000 * 8)) (queueing (appending 0)) (fun t =>
    decide (t.loadLE 0x6FFC000000 2 = 0x4000) && decide (t.rowCount 0x6FFC000000 = 1)) = true := by decide +kernel

/-- A query over no rows: its block at offset 0x10000 of the own scratchpad. -/
def asked : Query := reckoned ((world.slot 0).queryWords 0 0 0x10000 0x6FFC000000 0x6FFC000000 (((engines []).slot 0).handle 10) (((engines []).slot 0).handle 10) (.replicate 8 0)) 0

/-- It, with the scan of bank 3 before some rows. -/
def scanned (left todo : List Nat) : Query := { asked with taken := true, left := left, scans := [{ asked.scan 3 with todo := todo }] }

/-- The bank of row 0 under repair. -/
def pausing : State := (queueing (scanned [3] [0])).modStack (stackOf 0x6FFC000000) fun t =>
  { t with holds := [⟨.bank, world.bankOf 0x6FFC000000, 100, 0x6FFC000000, world.tick + 1⟩] }

theorem wit_ReckonersAct : (queueing asked).stuck = none ∧ (queueing asked).arrivingQuery (setOf 0x6FFC000000 * 8) 0x59 none = some asked ∧
    rkSnap asked.cmd.w ≤ (queueing asked).rowCount asked.keys.pa ∧ rkSnap asked.cmd.w ≤ (queueing asked).rowCount asked.vals.pa ∧
    (queueing asked).net.reqs = [] ∧ (queueing asked).module.retired = [] ∧ (queueing asked).module.down = [] ∧ Sound (queueing asked) ∧
    (∀ left ∈ [[3], [3, 4]], (queueing (scanned left [])).scanning (setOf 0x6FFC000000) 3 = some (scanned left []) ∧
      (scanned left []).scans.find? (fun z => z.bank = 3) = some (asked.scan 3)) ∧
    (asked.scan 3).fail = none ∧ (asked.scan 3).todo = [] ∧ (asked.scan 3).triple.acc.length = asked.vals.cols ∧
    [3, 4].filter (fun x => x ≠ 3) ≠ [] ∧ [3].filter (fun x => x ≠ 3) = [] ∧ (rkReplyTo asked.cmd.w).rkind = 0 ∧
    IssuerLives (queueing (scanned [3] [])) (rkCore asked.cmd.w) (rkReplyTo asked.cmd.w).ctxid ∧ asked.rows 0 = [] :=
  ⟨by decide +kernel, by decide +kernel, by decide +kernel, by decide +kernel, by decide +kernel, by decide +kernel, by decide +kernel, sound_of (by decide +kernel),
   by decide +kernel, by decide +kernel, by decide +kernel, by decide +kernel, by decide, by decide, by decide +kernel, lives_of 0 (by decide +kernel),
   by decide +kernel⟩

/-- A scan whose next row is held; a row of one element with a finite score. -/
theorem wit_ReckonersAct_rows : pausing.stuck = none ∧ pausing.scanning (setOf 0x6FFC000000) 3 = some (scanned [3] [0]) ∧
    (scanned [3] [0]).scans.find? (fun z => z.bank = 3) = some { asked.scan 3 with todo := [0] } ∧ (asked.scan 3).got = [] ∧ 0 < asked.keys.cols ∧
    pausing.retiredIn (pausing.rowKey asked.keys 0 0) = false ∧ pausing.heldRange (pausing.rowKey asked.keys 0 0) 1 = true ∧
    (scoreOf 0 [.fin false 1 1] [.fin false 3 0]).bad = false ∧
    (scaled 0 (scoreOf 0 [.fin false 1 1] [.fin false 3 0]).sum (.fin false 1 0)).isFin = true ∧ (∀ c ∈ [0x4000], (decodeElem fBF16 c).isFin = true) := by
  and_intros <;> decide +kernel

/-- R381: the query ends with its last record. -/
theorem test_record : gives (.record (setOf 0x6FFC000000) 3) (queueing (scanned [3] [])) (fun t =>
    decide (t.bankQueue (setOf 0x6FFC000000) = [])) = true := by decide +kernel

/-- A frame too long for Ethernet; an entry of the flow table takes the others (log 31), one of four ways. -/
theorem wit_SystemDieActs_frames : (world.flowAction ⟨0, .replicate 9217 0⟩).1 = 0 ∧
    ∀ (s : State) (f : Frame), ∃ act no e, s.flowAction f = (act, no, e) ∧ act < 4 := by
  constructor
  · have h : 9216 < (List.replicate 9217 (0 : Byte)).length := by rw [List.length_replicate]; omega
    unfold State.flowAction
    rw [if_pos h]
  · intro s f
    have h : (s.flowAction f).1 < 4 := by
      unfold State.flowAction
      split
      · simp
      · split
        · exact (Config.flowAct _).isLt
        · simp
    exact ⟨_, _, _, rfl, h⟩

/-- A path that has been down for 1 ms, with an access that waits for its node; a boot; register stores. -/
def cutOff : State := { world with ns := 1000000, module := { world.module with down := [(7, 0)] },
                                   net := { world.net with reqs := [⟨1, 0, 0, 0, 1, 7 * 2 ^ 48, 0, .read 8, false, false, some (.load (.s 3) 8 true), 4, 2, false⟩] } }

theorem wit_SystemDieActs : (7 : BitVec 16).toNat ≠ cutOff.node ∧ (∀ e ∈ world.module.down, e.1 ≠ 7) ∧ (7, 0) ∈ cutOff.module.down ∧
    0 + 1000000 ≤ cutOff.ns ∧ 7 ∉ cutOff.module.lost ∧ (∀ r ∈ cutOff.net.reqs, nodeOf r.key = 7 ∧ r.cont.isSome = true) ∧
    (820 : BitVec 10).toNat ∈ [940, 880, 820, 760, 700] ∧ (900 : BitVec 10).toNat ∉ [940, 880, 820, 760, 700] ∧ world.stuck = none ∧ cutOff.stuck = none ∧
    1 % 2 ^ (3 : BitVec 2).toNat ≠ 0 ∧ world.retiredAt (world.own 8) = false ∧ world.waitsAt (world.own 8) (2 ^ (3 : BitVec 2).toNat) = none ∧
    windowCore (pad + 0xE0038) = some 0 ∧ (pad + 0xE0038) % 64 = 56 ∧ (inboxOf 0 (windowOff (pad + 0xE0038))).isSome = true := by
  and_intros <;> decide +kernel

/-- A boot; one whose stage fails, and one that no stage can stop at; one whose firmware creates an actor. -/
def bootOf (stage : BitVec 8) (l : List BootActor) : Boot := ⟨stage, 1, 2, .replicate 8 1, 893, 24, [6], 0x1000, 0, true, [], l, .replicate 3 []⟩
def firmware : BootActor := ⟨0, 0x1000000, 7, 0, 0, 3, 1, 5⟩

theorem wit_SystemDieActs_boots : 1 ≤ (bootOf 4 []).failStage.toNat ∧ (bootOf 4 []).failStage.toNat ≤ 4 ∧ 4 < (bootOf 5 []).failStage.toNat ∧
    (let b := bootOf 0 []
     b.failStage = 0 ∧ b.actors = [] ∧ b.image = []) ∧ Memory.wf world.mem = true ∧
    (let a := firmware
     let b := bootOf 0 [a]
     let r : Creation := ⟨a.desc, a.gen, a.act, 3, a.rres, a.colour, a.mb0q, 0, a.asid⟩
     b.failStage = 0 ∧ b.actors = [a] ∧ a.core < 4096 ∧ 0 < 8 ∧ r.fits = true ∧
     okAnd ((bootState { b with actors := [] } (world.sdie.boot + 1)).placeFor a.core r) (fun n => decide (n = 0)) = true) := by
  and_intros <;> decide +kernel

theorem wit_SystemDieActs_plays : ∀ d c, (cutOff.comm d c).play = none := by
  intro d c
  have h : ∀ i : Fin 4, ∀ j : Fin 4, ((cutOff.dies[i]).comms[j]).play = none := by decide +kernel
  exact h (ix 4 d) (ix 4 c)

/-- R394: the digest of three bytes, as FIPS 180-4 gives it for the message "abc". -/
theorem test_digest : sha384 [0x61, 0x62, 0x63] =
    0xcb00753f45a35e8bb5a03d699ac65007272c32ab0eded1631a8b605a43ff5bed8086072ba1e7cc2358baeca134c825a7#384 := by decide +kernel

/-- A boot measures its images. -/
theorem wit_SystemDieActs_measured : (bootState (bootOf 0 []) 1).sdie.measured = some ((bootOf 0 []).images.map sha384) := rfl

/-- R399, R401. -/
theorem test_system : gives (.nodeUnreachable 7) cutOff (fun t => decide (t.net.reqs = []) && t.net.answers.any fun a => decide (a.cause = 0x3C1)) = true ∧
    gives (.clockChange 820 true false) world (fun t => decide (t.sdie.mhz = 820) && decide (t.sdie.throt = 1)) = true := by decide +kernel

/-! ### Witnesses: traps, decoding, the machine -/

/-- The running slot in class 0 with a change. -/
def user (f : Slot → Slot) : State := worldWith fun sl => f { sl with cls := 0 }

/-- An object that binds an emulation routine at 0x10040 to major 0x64, in the descriptor at 0x1000000. -/
def emulating : State :=
  let s := [(8, 7), (0x22, 1), (0x28, 0x1000100), (0x30, 0x10000), (0x100, 0x64 * 2 ^ 16 + 0x40 * 2 ^ 32)].foldl
    (fun s e => s.storeLE (0x1000000 + e.1) (if e.1 = 0x22 then 2 else 8) e.2) world
  s.modSlot 0 fun sl => { sl with desc := 0x1000000, gen := 7 }

theorem wit_TrapsAreTaken : world.stuck = none ∧ (user id).stuck = none ∧ emulating.stuck = none ∧ world.cur = some 0 ∧ (world.slot 0).status = .live ∧ (user id).cur = some 0 ∧ ((user id).slot 0).status = .live ∧
    (user id).hasFeat 0 = true ∧ ((user id).slot 0).cls.toNat < 2 ∧ ((user id).slot 0).budget = 0 ∧ ((user id).slot 0).retries = [] ∧
    (let s := worldWith fun sl => { sl with budget := 5, used := 5 }
     s.cur = some 0 ∧ s.stuck = none ∧ (s.slot 0).status = .live ∧ (s.slot 0).pred 0 = true ∧ (s.slot 0).budget ≠ 0 ∧ (s.slot 0).budget.toNat < (s.slot 0).used.toNat + 1 ∧
     (s.slot 0).retries = [] ∧ 2 ≤ (s.slot 0).cls.toNat) ∧
    world.gate 0xC9 = none ∧ emuOf 0xC9 = (0, 0x64) ∧ emulating.cur = some 0 ∧ emulating.gate 0xC9 = none ∧ ((emulating.slot 0).emu).getLsbD 0 = false ∧
    emulating.emuBinding (emulating.slot 0) (0, 0x64) = some (0, 0x64, 0x10040) ∧ (emulating.slot 0).budget = 0 ∧
    world.emuBinding (world.slot 0) (0, 0x64) = none ∧ 0 < 4 ∧ 0x64 < 1024 ∧
    (let s := worldWith fun sl => { sl with emu := 1 }
     s.cur = some 0 ∧ s.stuck = none ∧ (s.slot 0).status = .live ∧ s.gate 0xC9 = none ∧ (s.takeTrap 0 1 0 (some (emuOf 0xC9))).stuck = none) ∧
    (world.modModule fun m => { m with feat := .replicate 8 0 }).gate 0xBF = some 0 := by and_intros <;> decide +kernel

/-- The three policies of fault unit 0 at CORE, for class 0 (R213); a kill that waits for nothing. -/
def policed (p : Nat) : State := (user id).modCore 0 fun c => { c with cpol := BitVec.ofNat 24 (p * 2 ^ 12) }

theorem wit_TrapsAreTaken_policies : (∀ p < 3, (policed p).policy scCore (keyCore 0) 0 = p) ∧
    ((policed 2).takeTrap 0 1 0 (some (emuOf 0xC9))).stuck = none ∧ (policed 2).stuck = none ∧
    (policed 2).emuBinding ((policed 2).slot 0) (emuOf 0xC9) = none := by and_intros <;> decide +kernel

/-- R218: the routine's address, EPC and EMU; R210: the activation ends. -/
theorem test_trap :
    gives (.unassignedEncoding 0xC9 1) emulating (fun t => decide ((t.slot 0).pc = 0x10040) && decide ((t.slot 0).epc = 0x10000) &&
      decide ((t.slot 0).emu = 1 + 2 ^ 16 * 0x64)) = true ∧
    gives (.unassignedEncoding 0xC9 1) world (fun t => decide ((t.slot 0).phase = .idle) && decide ((t.slot 0).fpc = 0x10000)) = true := by
  decide +kernel

/-- The hypotheses of the round trip, for both lengths. -/
theorem wit_DecodeEncodeRoundTrip : (Instr.add (.s 5) (.s 6) (.q 2) 3).wf = true ∧ (Instr.add (.s 5) (.s 6) (.q 2) 3).len = 4 ∧
    (Instr.zaddi 3 0b111011).wf = true ∧ (Instr.zaddi 3 0b111011).len = 2 := by decide +kernel

theorem wit_DecodedInstructionsAreEncodings : decodeBytes (wordOf 0x70830501) = .ok (.add (.s 5) (.s 6) (.q 2) 3, 4) ∧
    bit (0xC1#32) 0 = true ∧ 0x60 ≤ bits (0xC1#32) 7 1 ∧ bit (0x32#16) 0 = false ∧ 0x18 < bits (0x32#16) 5 1 := by decide +kernel

/-- Code in the page at 0x10000 and the next one. -/
def fetching (pc : BitVec 52) (l : List (Nat × Nat)) : State :=
  l.foldl (fun s e => s.storeLE (loadBase + 0xA0000 + e.1) 2 e.2) (worldWith fun sl => { sl with pc := pc })

/-- Whether a fetch of slot 0 translates its first page, reads its first halfword, and does so with its second: in the same
page, or in the next one. -/
def fetches (s : State) (short : Bool) (next : State → Xlate → Bool) : Bool :=
  decide (s.mover = .core 0) && decide (s.cur = some 0) && okAnd (s.translate 0 0 2 .fetch ((s.slot 0).pc.setWidth 64)) fun x =>
    okAnd ((s.fillTlb 0 x).readHalf x x.key) fun e => decide (leNat e.2 % 2 = 1) != short && next e.1 x

def failed {ε α : Type} (e : Except ε α) : Bool :=
  match e with
  | .error _ => true
  | .ok _ => false

/-- The word at the start of the code poisoned, or the next one. -/
def spoiled (n : Nat) (pc : BitVec 52) : State := { fetching pc [(0, 0x0501), (6, 0x0501)] with poison := [(loadBase + 0xA0000) / 8 + n] }

theorem wit_StepRunsDecodedInstruction :
    fetches world true (fun _ _ => true) = true ∧
    fetches (fetching 0x10000 [(0, 0x0501)]) false (fun u x => okAnd (u.readHalf x (x.key + 2)) fun _ => true) = true ∧
    fetches (spoiled 1 0x10006) false (fun u x => failed (u.readHalf x (x.key + 2))) = true ∧
    fetches (fetching 0x1FFFE [(0xFFFE, 0x0501)]) false (fun u _ => failed (u.translate 0 0 2 .fetch 0x20000)) = true ∧
    (let s := (fetching 0x1FFFE [(0xFFFE, 0x0501)]).storeLE (loadBase + 0x92010) 8 (loadBase + 0xA001F)
     fetches s false (fun u _ => okAnd (u.translate 0 0 2 .fetch 0x20000) fun y => okAnd ((u.fillTlb 0 y).readHalf y y.key) fun _ => true) = true ∧
     fetches { s with poison := [(loadBase + 0xA0000) / 8] } false (fun u _ => okAnd (u.translate 0 0 2 .fetch 0x20000) fun y =>
       failed ((u.fillTlb 0 y).readHalf y y.key)) = true) ∧
    failed ((worldWith fun sl => { sl with pc := 0x900000 }).translate 0 0 2 .fetch 0x900000) = true ∧
    okAnd ((spoiled 0 0x10000).translate 0 0 2 .fetch 0x10000) (fun x => failed (((spoiled 0 0x10000).fillTlb 0 x).readHalf x x.key)) = true ∧
    decodeBytes (halfOf 0) = .error .undefOp ∧ State.reset.mover = .idle ∧ ({ State.reset with mover := .core 0 }).cur = none := by
  and_intros <;> decide +kernel

/-- A halfword of a retired frame, of a lost node, and one of memory, unpoisoned or poisoned. -/
theorem wit_StepRunsDecodedInstruction_halves :
    { world with module := { world.module with retired := [⟨0, 0⟩] } }.retiredAt 0 = true ∧
    (let s := { world with module := { world.module with lost := [7] } }
     s.retiredAt (7 * 2 ^ 48) = false ∧ s.unreachable (7 * 2 ^ 48) = true) ∧
    world.retiredAt 0 = false ∧ world.unreachable 0 = false ∧ Sound world ∧ world.poisoned 0 2 = false ∧
    (let s := { world with poison := [0] }
     s.retiredAt 0 = false ∧ s.unreachable 0 = false ∧ Sound s ∧ s.poisoned 0 2 = true) :=
  ⟨by decide +kernel, by and_intros <;> decide +kernel, by decide +kernel, by decide +kernel, sound_of (by decide +kernel), by decide +kernel,
   by decide +kernel, by decide +kernel, sound_of (by decide +kernel), by decide +kernel⟩

/-- An event with nothing held, one with a path down that changes the state, and one that does not. -/
theorem wit_StepRunsDecodedInstruction_events : (let e := Instr.crcReplay 0
     let s := { State.reset with mover := .event e }
     s.mover = .event e ∧ s.mayWait = false) ∧
    (let e := Instr.clockChange 820 true false
     let s := { cutOff with mover := .event e }
     s.mover = .event e ∧ exec e s ≠ .next s) ∧
    exec (.crcReplay 0) { cutOff with mover := .event (.crcReplay 0) } = .next { cutOff with mover := .event (.crcReplay 0) } ∧
    { cutOff with mover := .event (.crcReplay 0) }.mayWait = true := by
  refine ⟨by and_intros <;> decide +kernel, ⟨rfl, ?_⟩, rfl, by decide +kernel⟩
  intro h
  have g : gives (.clockChange 820 true false) { cutOff with mover := .event (.clockChange 820 true false) } (fun t => decide (t.sdie.mhz = 820)) = true := by
    decide +kernel
  rw [gives, h] at g
  exact absurd g (by decide +kernel)

/-- The invariant holds right after reset and after the load of a program, and that state takes a step. -/
theorem wit_EveryStepKeepsMemoryCanonical : Memory.wf (State.reset.withFetchWord 32 0x70830501).mem = true ∧
    ∃ t, step (State.reset.withFetchWord 32 0x70830501) = .next t := by
  refine ⟨by decide +kernel, ?_⟩
  have h : (match step (State.reset.withFetchWord 32 0x70830501) with | .next _ => true | _ => false) = true := by decide +kernel
  split at h
  · next t ht => exact ⟨t, ht⟩
  · cases h

end Sys2Proof.Tests
end

section
/-! PROOFS. The scalar instructions that write one value through D, and the branches and jumps (chapter 6). -/

namespace Sys2Proof.Scalar
open Sys2Proof.Machine Sys2Proof.Claims

/-! ### What an instruction of the scalar group comes to -/

/-- Where an instruction has its own effect, the decode checks, the guard and the budget let its body run. -/
theorem runs_of_ready {s : State} {k cost : Nat} {feats : List Nat} {g : PredNo} (h : Ready s k feats g cost) :
    Runs s k { feats := feats } cost g where
  cur := h.runs
  feats := h.feats
  cls := by simp
  guard := h.guard
  fits := by
    obtain hz | hle := h.budget
    · simp [Slot.over, hz]
    · simp [Slot.over, Nat.not_lt.mpr hle]

/-- The model writes a D specifier as R55 and R57 say. -/
theorem write_eq_wrote (sl : Slot) (d : Dst) (v : Word) : sl.write d v = wrote d v sl := by
  cases d with
  | s n =>
    by_cases hn : n = 0
    · subst hn; rfl
    · simp only [Slot.write, Slot.put, wrote, if_neg hn]
  | q n => rfl
  | last => rfl

/-- The decode condition of a scalar form: feature 0, and before it feature 1 where the form has 16 bits (R102). -/
theorem scalarNeed_eq (len : Nat) :
    (if len = 2 then { feats := [1, 0] } else { feats := [0] } : Need) =
      { feats := if len = 2 then [1, 0] else [0] } := by
  split <;> rfl

/-- An instruction of the scalar group gives its value through D and goes on, and nothing else changes. -/
theorem alu_gives {s : State} {k len cost : Nat} {g : PredNo} {d : Dst} {f : Slot → Word} {v : Word}
    (h : Ready s k (if len = 2 then [1, 0] else [0]) g cost) (hv : f (s.slot k) = v) :
    s.alu len cost g d f = .next (gave s k len cost d v) := by
  subst hv
  rw [State.alu, scalarNeed_eq, State.run_of_runs (runs_of_ready h), State.modSlot_eq,
    Act.finish_next_setSlot _ _ _ _ _ h.free, write_eq_wrote]
  rfl

/-- A branch that is taken writes its link, charges 2 cycles and goes to its target. -/
theorem branch_taken {s : State} {k len : Nat} {taken : Slot → Bool} {target : Slot → BitVec 52} {link : Slot → Slot}
    {pc : BitVec 52} {sl : Slot} (h : Ready s k (if len = 2 then [1, 0] else [0]) 0 2)
    (ht : taken (s.slot k) = true) (hpc : target (s.slot k) = pc) (hl : link (s.slot k) = sl) :
    s.branch len taken target link = .next (s.setSlot k (jumped 2 pc sl)) := by
  subst hpc hl
  simp only [State.branch, h.runs, ht, if_true, scalarNeed_eq]
  rw [State.run_of_runs (runs_of_ready h), Act.finish_jump _ _ _ _ _ (by simpa using h.free)]
  simp [State.modSlot_eq, jumped, charged, Slot.charge]

/-- A branch that is not taken charges 1 cycle and goes on. -/
theorem branch_notTaken {s : State} {k len : Nat} {taken : Slot → Bool} {target : Slot → BitVec 52} {link : Slot → Slot}
    (h : Ready s k (if len = 2 then [1, 0] else [0]) 0 1) (ht : taken (s.slot k) = false) :
    s.branch len taken target link = .next (s.setSlot k (passed len 1 (s.slot k))) := by
  simp only [State.branch, h.runs, ht, Bool.false_eq_true, if_false, scalarNeed_eq]
  rw [State.run_of_runs (runs_of_ready h), Act.finish_next _ _ _ _ h.free]
  rfl

theorem exec_brT (p : PredNo) (disp : BitVec 20) (s : State) : exec (.brT p disp) s =
    s.branch 4 (fun sl => sl.pred p) (fun sl => dispTarget sl.pc disp) id := rfl

theorem exec_brF (p : PredNo) (disp : BitVec 20) (s : State) : exec (.brF p disp) s =
    s.branch 4 (fun sl => !sl.pred p) (fun sl => dispTarget sl.pc disp) id := rfl

theorem exec_j (disp : BitVec 24) (s : State) : exec (.j disp) s =
    s.branch 4 (fun _ => true) (fun sl => dispTarget sl.pc disp) id := rfl

theorem exec_jl (disp : BitVec 24) (s : State) : exec (.jl disp) s =
    s.branch 4 (fun _ => true) (fun sl => dispTarget sl.pc disp) (fun sl => sl.put (linkOf sl) (.s 63)) := rfl

theorem exec_jr (d : Dst) (a : Src) (imm : BitVec 10) (s : State) : exec (.jr d a imm) s =
    s.branch 4 (fun _ => true) (fun sl => (sl.read a + (imm.signExtend 64 <<< 1)).setWidth 52 &&& ~~~1#52)
      (fun sl => sl.write d (linkOf sl)) := rfl

/-! ### The arithmetic of the scalar majors, on numbers -/

theorem divide_eq (x y : Word) : divide x y =
    if y = 0 then 0xFFFFFFFFFFFFFFFF#64 else BitVec.ofInt 64 (x.toInt.tdiv y.toInt) := by
  unfold divide
  split
  · rfl
  · exact BitVec.eq_of_toInt_eq (by rw [BitVec.toInt_sdiv, BitVec.toInt_ofInt])

theorem remain_eq (x y : Word) : remain x y =
    if y = 0 then x else BitVec.ofInt 64 (x.toInt - y.toInt * x.toInt.tdiv y.toInt) := by
  unfold remain
  split
  · rfl
  · rw [← Int.tmod_def, ← BitVec.toInt_srem, BitVec.ofInt_toInt]

theorem shiftLeft_eq_ofNat (x : Word) (n : Nat) : x <<< n = BitVec.ofNat 64 (x.toNat * 2 ^ n) :=
  BitVec.eq_of_toNat_eq (by rw [BitVec.toNat_shiftLeft, Nat.shiftLeft_eq, BitVec.toNat_ofNat])

theorem ushiftRight_eq_ofNat {w : Nat} (x : BitVec w) (n : Nat) : x >>> n = BitVec.ofNat w (x.toNat / 2 ^ n) := by
  rw [← Nat.shiftRight_eq_div_pow, ← BitVec.toNat_ushiftRight, BitVec.ofNat_toNat, BitVec.setWidth_eq]

theorem sshiftRight_eq_ofInt (x : Word) (n : Nat) : x.sshiftRight n = BitVec.ofInt 64 (x.toInt / 2 ^ n) := by
  rw [BitVec.sshiftRight, Int.shiftRight_eq_div_pow, Int.natCast_pow]
  rfl

/-- The funnel shift is the quotient of the double word (R110). -/
theorem funnel_eq (h lo : Word) (k : Nat) :
    funnel h lo k = BitVec.ofNat 64 ((h.toNat * 2 ^ 64 + lo.toNat) / 2 ^ k) := by
  rw [funnel, ushiftRight_eq_ofNat, BitVec.setWidth_ofNat_of_le (by decide), BitVec.toNat_append,
    ← Nat.shiftLeft_add_eq_or_of_lt lo.isLt, Nat.shiftLeft_eq]

theorem add_signExtend_eq {w n : Nat} (x : BitVec w) (imm : BitVec n) :
    x + imm.signExtend w = BitVec.ofInt w (x.toNat + imm.toInt) := by
  rw [BitVec.ofInt_add, BitVec.ofInt_natCast, BitVec.ofNat_toNat, BitVec.setWidth_eq]
  rfl

theorem rotl_eq (x : Word) (n : BitVec 6) : rotl x n.toNat = (x <<< n.toNat) ||| (x >>> (64 - n.toNat)) := by
  rw [rotl, BitVec.rotateLeft_def, Nat.mod_eq_of_lt n.isLt]

theorem rotr_eq (x : Word) (n : BitVec 6) : rotr x n.toNat = (x >>> n.toNat) ||| (x <<< (64 - n.toNat)) := by
  rw [rotr, BitVec.rotateRight_def, Nat.mod_eq_of_lt n.isLt]

/-- LIM merges its field in below the shifted destination (R115). -/
theorem shiftLeft_or_setWidth_eq_ofNat (h : Word) (imm : BitVec 17) :
    (h <<< 17) ||| imm.setWidth 64 = BitVec.ofNat 64 (h.toNat * 2 ^ 17 ||| imm.toNat) := by
  rw [BitVec.ofNat_or, ← shiftLeft_eq_ofNat, BitVec.ofNat_toNat]

/-! ### Targets -/

/-- A sign-extended displacement counts halfwords (R52). -/
theorem signExtend_shiftLeft_one {w n : Nat} (imm : BitVec n) :
    (imm.signExtend w <<< 1) = BitVec.ofInt w (2 * imm.toInt) := by
  rw [BitVec.shiftLeft_eq_mul_twoPow, BitVec.ofInt_mul, BitVec.mul_comm]
  congr 1
  exact BitVec.eq_of_toNat_eq (by simp)

theorem add_signExtend_shiftLeft_one {w n : Nat} (x : BitVec w) (imm : BitVec n) :
    x + (imm.signExtend w <<< 1) = BitVec.ofInt w (x.toNat + 2 * imm.toInt) := by
  rw [signExtend_shiftLeft_one, BitVec.ofInt_add, BitVec.ofInt_natCast, BitVec.ofNat_toNat, BitVec.setWidth_eq]

theorem setWidth_ofInt_of_le {v w : Nat} (h : v ≤ w) (z : Int) :
    (BitVec.ofInt w z).setWidth v = BitVec.ofInt v z := by
  have hd : (2 ^ v : Int) ∣ 2 ^ w := pow_dvd_pow 2 h
  have he : ((z % 2 ^ w).toNat : Int) = z % 2 ^ w := Int.toNat_of_nonneg (Int.emod_nonneg _ (by positivity))
  apply BitVec.eq_of_toNat_eq
  zify
  simp [Int.emod_emod_of_dvd _ hd, he, Int.emod_nonneg]

theorem and_not_one_eq_shift {w : Nat} (y : BitVec w) : y &&& ~~~1#w = (y >>> 1) <<< 1 := by
  ext i hi
  cases i with
  | zero => simp [BitVec.getElem_one]
  | succ i => simp [BitVec.getElem_one, Nat.add_comm 1 i, BitVec.getLsbD_eq_getElem hi]

/-- Clearing bit 0 leaves the even number below. -/
theorem ofInt_and_not_one (z : Int) : BitVec.ofInt 52 z &&& ~~~1#52 = BitVec.ofInt 52 (z / 2 * 2) := by
  apply BitVec.eq_of_toNat_eq
  rw [and_not_one_eq_shift, BitVec.toNat_shiftLeft, BitVec.toNat_ushiftRight, Nat.shiftLeft_eq,
    Nat.shiftRight_eq_div_pow, BitVec.toNat_ofInt, BitVec.toNat_ofInt]
  omega

/-- A link to s63 leaves L alone (R57, R123). -/
theorem put_s63 (sl : Slot) (v : Word) : sl.put v (.s 63) = { sl with s := sl.s.set 63 v } := rfl

/-- A register target drops the bits above 51 and clears bit 0 (R51, R124). -/
theorem registerTarget_eq (x : Word) (imm : BitVec 10) :
    (x + (imm.signExtend 64 <<< 1)).setWidth 52 &&& ~~~1#52 =
      BitVec.ofInt 52 ((x.toNat + 2 * imm.toInt) / 2 * 2) := by
  rw [add_signExtend_shiftLeft_one, setWidth_ofInt_of_le (by decide), ofInt_and_not_one]

theorem dispTarget_eq_target {n : Nat} (pc : BitVec 52) (disp : BitVec n) : dispTarget pc disp = target pc disp :=
  add_signExtend_shiftLeft_one pc disp

/-! ### The obligations -/

/-- Settles O3 (R108): the checks let DIV and REM run, and the model's division is the quotient of the integers. -/
theorem divisionDefinesEveryPair : Obligations.DivisionDefinesEveryPair := by
  intro s k d a b g h
  exact ⟨alu_gives h (divide_eq _ _), alu_gives h (remain_eq _ _)⟩

/-- Settles O4 (R109, R110): SEL is checked under guard p0, which is always true; the guard of FSH is its own. -/
theorem selectAndFunnelShift : Obligations.SelectAndFunnelShift := by
  intro s k d a b p
  exact ⟨fun h => alu_gives h rfl, fun h => alu_gives h (funnel_eq _ _ _)⟩

/-- Settles O6 (R112 to R115): each form is a scalar instruction under guard p0, so only its value is left to show. -/
theorem immediateFormsWriteTheirResult : Obligations.ImmediateFormsWriteTheirResult := by
  intro s k d a v imm m n w h
  refine ⟨?addi, ?logiAnd, ?logiOr, ?logiXor, ?logiAndn, ?logiOrn, ?logiXnor,
    ?shiShl, ?shiShr, ?shiSar, ?shiRol, ?shiRor, ?lim⟩
  case addi => exact alu_gives h (add_signExtend_eq _ _)
  case logiAnd => exact alu_gives h rfl
  case logiOr => exact alu_gives h rfl
  case logiXor => exact alu_gives h rfl
  case logiAndn => exact alu_gives h rfl
  case logiOrn => exact alu_gives h rfl
  case logiXnor => exact alu_gives h rfl
  case shiShl => exact alu_gives h (shiftLeft_eq_ofNat _ _)
  case shiShr => exact alu_gives h (ushiftRight_eq_ofNat _ _)
  case shiSar => exact alu_gives h (sshiftRight_eq_ofInt _ _)
  case shiRol => exact alu_gives h (rotl_eq _ _)
  case shiRor => exact alu_gives h (rotr_eq _ _)
  case lim => exact alu_gives h (shiftLeft_or_setWidth_eq_ofNat _ _)

/-- Settles O8 (R122 to R124): each of the five is a branch that is taken or not; its target and link are left to show. -/
theorem branchesAndJumpsReachTheirTargets : Obligations.BranchesAndJumpsReachTheirTargets := by
  intro s k
  refine ⟨fun p disp => ⟨fun h hp => ?brT, fun h hp => ?brF, fun h hp => ?brTNot, fun h hp => ?brFNot⟩,
    fun h disp => ⟨?j, ?jl⟩, fun h d a imm => ?jr⟩
  case brT => exact (exec_brT p disp s).trans (branch_taken h hp (dispTarget_eq_target _ _) rfl)
  case brF => exact (exec_brF p disp s).trans (branch_taken h (by rw [hp]; rfl) (dispTarget_eq_target _ _) rfl)
  case brTNot => exact (exec_brT p disp s).trans (branch_notTaken h hp)
  case brFNot => exact (exec_brF p disp s).trans (branch_notTaken h (by rw [hp]; rfl))
  case j => exact (exec_j disp s).trans (branch_taken h rfl (dispTarget_eq_target _ _) rfl)
  case jl => exact (exec_jl disp s).trans (branch_taken h rfl (dispTarget_eq_target _ _) (put_s63 _ _))
  case jr => exact (exec_jr d a imm s).trans (branch_taken h rfl (registerTarget_eq _ _) (write_eq_wrote _ _ _))

end Sys2Proof.Scalar
end
